-- ==== Sys2Proof/Word.lean ====
section
/-! DEFINITION. The word types of the block: a register, a register number, a microsecond count, the raw frame. -/

namespace Sys2Proof

/-- One register of the register file (00_scope.md R7, `XLEN = 32`). -/
abbrev Word := BitVec 32

/-- A register number, 0 to 15 (20_memory.md R40). -/
abbrev RegNum := BitVec 4

/-- A count of microseconds, which is a count of ticks (00_scope.md R7, `CNTW = 24`, `TICK_US = 1`). -/
abbrev Count := BitVec 24

/-- One byte of the frame (30_encoding.md R66). -/
abbrev Byte := BitVec 8

/-- The RawFrame, exactly 40 bits (10_state.md R18). -/
abbrev RawFrame := BitVec 40

end Sys2Proof
end

