-- ==== Sys2Proof/Syntax.lean ====
section
/-! DEFINITION. The six operations of 00_scope.md R3, one constructor for each row of the opcode table, with the
operands 30_encoding.md R62 gives each. -/

namespace Sys2Proof

/-- A level of the wire (00_scope.md section 6: `Low = 0`, `High = 1`). -/
inductive Level where
  | low
  | high
  deriving DecidableEq, Repr, Inhabited

/-- An operation a host can issue. A field of the command word that an operation ignores is no operand of it
(30_encoding.md R64). -/
inductive Instr where
  /-- `RELEASE` (41_line_ops.md R80). -/
  | release
  /-- `DRIVE_LOW` (41_line_ops.md R81). -/
  | driveLow
  /-- `READ_LEVEL` (41_line_ops.md R82). -/
  | readLevel
  /-- `MEASURE_PULSE lvl, timeout_us` (42_sampler_ops.md R91). -/
  | measurePulse (lvl : Level) (timeoutUs : Count)
  /-- `SLEEP_US duration_us` (42_sampler_ops.md R92). -/
  | sleepUs (durationUs : Count)
  /-- `READ` (43_protocol_read.md R100). -/
  | read
  deriving DecidableEq, Repr

end Sys2Proof
end

