-- ==== Sys2Proof/WellFormed.lean ====
section
/-! DEFINITION. Which command words are well formed, written from 30_encoding.md R64 with numbers alone, apart from
the decoder. A term of `Instr` needs no check of its own: its operands are a level and a 24-bit count, every value of
which is legal (30_encoding.md R65), and the types hold nothing else. -/

namespace Sys2Proof

/-- Check 1 of R64: `OP`, bits 3:0, is one of the six codes 1 to 6. -/
def opLegal (w : Word) : Bool := 1 ≤ w.toNat % 16 && w.toNat % 16 ≤ 6

/-- Check 2 of R64: `RSV`, bits 7:5, is 0. -/
def rsvLegal (w : Word) : Bool := w.toNat / 32 % 8 == 0

/-- A well-formed command word: one that is not illegal (R64). -/
def wordLegal (w : Word) : Bool := opLegal w && rsvLegal w

end Sys2Proof
end

