-- ==== Sys2Proof/Decode.lean ====
section
/-! DEFINITION. The command word (30_encoding.md R60 to R65): its fields, the decoder, which is total and rejects by
name, and the encoder. -/

namespace Sys2Proof

/-- Why a command word is illegal (30_encoding.md R64). An illegal word is no stop: 30_encoding.md R64 says what
writing it does. -/
inductive DecodeError where
  /-- `OP` is 0 or 7 to 15. -/
  | illegalOp (op : BitVec 4)
  /-- `RSV` is not 0. -/
  | reservedBits (rsv : BitVec 3)
  deriving DecidableEq, Repr

/-- `OP`, bits 3:0 (R60). -/
def fieldOp (w : Word) : BitVec 4 := w.extractLsb' 0 4

/-- `LVL`, bit 4 (R60). -/
def fieldLvl (w : Word) : BitVec 1 := w.extractLsb' 4 1

/-- `RSV`, bits 7:5 (R60). -/
def fieldRsv (w : Word) : BitVec 3 := w.extractLsb' 5 3

/-- `ARG`, bits 31:8 (R60). -/
def fieldArg (w : Word) : Count := w.extractLsb' 8 24

/-- The code of a level: `Low = 0`, `High = 1` (00_scope.md section 6). -/
def Level.bit : Level → BitVec 1
  | .low => 0
  | .high => 1

/-- The level of a code. -/
def Level.ofBit (c : BitVec 1) : Level := if c = 1 then .high else .low

/-- The operation a command word names (R61, R62), or why the word is illegal (R64). -/
def decode (w : Word) : Except DecodeError Instr :=
  if fieldRsv w = 0 then
    match (fieldOp w).toNat with
    | 1 => .ok .release
    | 2 => .ok .driveLow
    | 3 => .ok .readLevel
    | 4 => .ok (.measurePulse (Level.ofBit (fieldLvl w)) (fieldArg w))
    | 5 => .ok (.sleepUs (fieldArg w))
    | 6 => .ok .read
    | _ => .error (.illegalOp (fieldOp w))
  else .error (.reservedBits (fieldRsv w))

/-- The command word with the given fields and `RSV = 0` (R60). -/
def commandWord (op : BitVec 4) (lvl : Level) (arg : Count) : Word := arg ++ 0#3 ++ lvl.bit ++ op

/-- The code `OP` of an operation (R62). -/
def Instr.opCode : Instr → BitVec 4
  | .release => 1
  | .driveLow => 2
  | .readLevel => 3
  | .measurePulse _ _ => 4
  | .sleepUs _ => 5
  | .read => 6

/-- The word the assembler emits, its unused fields 0 (R62, R69). -/
def encode : Instr → Word
  | .measurePulse lvl timeoutUs => commandWord 4 lvl timeoutUs
  | .sleepUs durationUs => commandWord 5 .low durationUs
  | .release => commandWord 1 .low 0
  | .driveLow => commandWord 2 .low 0
  | .readLevel => commandWord 3 .low 0
  | .read => commandWord 6 .low 0

/-- A table row's bits as one command word, the bits above `nbits` zero. The word goes to the block whole:
byte order does not arise (20_memory.md R44; DEDUCED, log entry 13). -/
def tableWord (nbits w : Nat) : Word := BitVec.ofNat 32 (w % 2 ^ nbits)

/-- The instruction the decoder reads from a table row's bits. -/
def decodeTableWord (nbits w : Nat) : Option Instr :=
  match decode (tableWord nbits w) with
  | .ok i => some i
  | .error _ => none

end Sys2Proof
end

