-- ==== Sys2Proof/Config.lean ====
section
/-! DEFINITION. The build-time parameters of 00_scope.md R7 and the free values of the environment. -/

namespace Sys2Proof.Config

/-- The open choice behind `T_SETTLE_US`: nothing constrains it (00_scope.md R7, `OPEN`; log entry 3). -/
opaque settleFree : Count

/-- `T_SETTLE_US`: the ticks after a direction switch during which a sample is a draw. Open, at least 1
(10_state.md R13, R31); 24 bits wide like the counter it is compared with (44_validate_decode.md R136).
DEDUCED, log entry 3: the width. -/
def tSettleUs : Count := if settleFree = 0 then 1 else settleFree

/-- `T_REREAD_MIN_US`: the sensor's minimum re-read interval, a duty of the host. Open; no rule of the block
reads it (70_reset_and_hazards.md R166), and nothing in the model does (DESIGN CHOICE, log entry 11). -/
opaque tRereadMinUs : Nat

/-- `PIN_ID`: the fixed number of the one pin the line is bound to. Open; no rule reads it
(60_exceptions.md R151), and nothing in the model does (log entry 11). -/
opaque pinId : Nat

/-- `HUM_X10_MAX`: the largest accepted humidity, in tenths of a percent (00_scope.md R7). -/
def humX10Max : Nat := 1000

/-- `FRAC_MAX`: the largest accepted fraction byte (00_scope.md R7). -/
def fracMax : Nat := 9

/-- FREE VALUE: `sensor_low` of the `n`-th tick that no schedule describes (00_scope.md R4, R5: the sensor is
constrained by nothing; log entry 2). -/
opaque freeSensorLow : Nat → Bool

/-- FREE VALUE: `draw` of the `n`-th tick that no schedule describes (10_state.md R31; log entry 2). -/
opaque freeDraw : Nat → Level

end Sys2Proof.Config
end

