-- ==== Sys2Proof/Machine/State.lean ====
section
/-! DEFINITION. The state of the block (10_state.md R10 to R29, R35), the run steps that reach it (00_scope.md R5), the
state of a run, and the state after reset. -/

namespace Sys2Proof.Machine

/-- LogicalDirection, `DIR` (10_state.md R10). -/
inductive Direction where
  | input
  | output
  deriving DecidableEq, Repr

/-- The protocol state `ST` (10_state.md R14). The reserved codes 8 to 15 are never taken and have no
constructor (93_implementation_defined.md U6; DESIGN CHOICE, log entry 5). -/
inductive Protocol where
  | idle
  | hostStart
  | waitSensorAck
  | waitSensorReady
  | readingBits
  | validating
  | done
  | failed
  deriving DecidableEq, Repr

/-- The sampler state `SST` (10_state.md R16). -/
inductive Sampler where
  | idle
  | sleep
  | measure
  | sample
  deriving DecidableEq, Repr

/-- The error code `ERR` (60_exceptions.md R140). The reserved codes 5 to 7 are never written and have no
constructor (93_implementation_defined.md U6; DESIGN CHOICE, log entry 5). -/
inductive ErrCode where
  | none
  | noResponse
  | timeout
  | checksumMismatch
  | malformedFrame
  deriving DecidableEq, Repr

/-- `PULSE`, register 6 (10_state.md R21). -/
structure Pulse where
  /-- `PULSE.DUR`: the PulseDuration of the last completed `MEASURE_PULSE`. -/
  dur : Count
  /-- `PULSE.TO`: that measurement ended in Timeout. -/
  timedOut : Bool
  /-- `PULSE.LVLS`: the level the last completed `READ_LEVEL` returned. -/
  lvls : Level
  /-- `PULSE.ZERO`: that measurement ended with a duration of 0 and no timeout. -/
  zero : Bool
  deriving DecidableEq, Repr

/-- The eight timing registers, numbers 8 to 15 (10_state.md R22 to R29). -/
structure Timing where
  tStart : Count
  tAckDelay : Count
  tRespWindow : Count
  tAckLowTo : Count
  tAckHighTo : Count
  tBitLowTo : Count
  tBitHighTo : Count
  tBitThresh : Count
  deriving DecidableEq, Repr

/-- The block: every row of the state table of 10_state.md R35, under the spec's names. -/
structure Block where
  /-- `DIR` (R10). -/
  dir : Direction
  /-- `SETTLE`: ticks since `DIR` last changed value, saturating (R13). -/
  settle : Count
  /-- `ST` (R14). -/
  st : Protocol
  /-- `PH`: the phase inside a state (R15). -/
  ph : Bool
  /-- `BITCNT`: data bits captured so far (R15). -/
  bitcnt : BitVec 6
  /-- `SST` (R16). -/
  sst : Sampler
  /-- `EXP`: the expected level of a running `MEASURE_PULSE` (R16). -/
  exp : Level
  /-- `LIM`: the duration or the timeout of a running sampler operation (R16). -/
  lim : Count
  /-- `CNT`: the microsecond counter (R17). -/
  cnt : Count
  /-- `FRAME`: the RawFrame (R18). -/
  frame : RawFrame
  /-- `ERR` (R20). -/
  err : ErrCode
  /-- `VALID` (R20). -/
  valid : Bool
  /-- `HUM_X10`: humidity in tenths of a percent (R20). -/
  humX10 : BitVec 11
  /-- `TEMP_X10`: temperature in tenths of a degree Celsius (R20). -/
  tempX10 : BitVec 12
  /-- `REJ`: sticky, a host write was refused (R21). -/
  rej : Bool
  /-- `PULSE` (R21). -/
  pulse : Pulse
  /-- `T_START` to `T_BIT_THRESH` (R22 to R29). -/
  timing : Timing
  deriving DecidableEq, Repr

/-- The four kinds of step of a run (00_scope.md R5). -/
inductive RunStep where
  /-- `Reset` (70_reset_and_hazards.md R160). -/
  | reset
  /-- `HostRead(n)` (20_memory.md R42). -/
  | hostRead (n : RegNum)
  /-- `HostWrite(n, v)` (20_memory.md R43). -/
  | hostWrite (n : RegNum) (v : Word)
  /-- `Tick(sensor_low, draw)` (10_state.md R30). -/
  | tick (sensorLow : Bool) (draw : Level)
  deriving DecidableEq, Repr

/-- A run's state: the block, and the three fields that are the MODEL's own and carry what reaches the block from
outside it (00_scope.md R4, R5; DESIGN CHOICE, log entries 1 and 2). -/
structure State where
  /-- The block. -/
  blk : Block
  /-- The run steps that come next, the first one first: the host's program and the line environment as data
  (00_scope.md R5; log entry 1). -/
  schedule : List RunStep
  /-- What the last `HostRead` returned to the host: the host's, not the block's (20_memory.md R42;
  log entry 1). -/
  readData : Word
  /-- How many ticks ran with free inputs, the schedule being empty (log entry 2). -/
  freeTicks : Nat
  deriving DecidableEq, Repr

/-- The block has no fault: every register access and every command word has an effect (20_memory.md R46,
30_encoding.md R64), an error of a transaction is a state (60_exceptions.md R142), and "Nothing in this subsystem
is fatal" (60_exceptions.md R146). So no step raises one, and the type is empty. -/
inductive Fault
  deriving DecidableEq, Repr

/-- Why an instruction has no meaning. -/
inductive Refusal where
  /-- Raised by an arm of `exec` whose instruction has no meaning yet; safe, since a run stops there. No arm
  raises it: all six operations are modelled. -/
  | notModelled (mnemonic : String)
  deriving DecidableEq, Repr

/-- What one step answers. -/
abbrev StepResult := Host.Outcome State Fault Refusal

/-- The defaults of the timing registers (10_state.md R22 to R29). -/
def Timing.reset : Timing where
  tStart := 18000
  tAckDelay := 30
  tRespWindow := 100
  tAckLowTo := 100
  tAckHighTo := 100
  tBitLowTo := 70
  tBitHighTo := 90
  tBitThresh := 49

/-- The block after Reset: the table of 10_state.md R35. -/
def Block.reset : Block where
  dir := .input
  settle := 0
  st := .idle
  ph := false
  bitcnt := 0
  sst := .idle
  exp := .low
  lim := 0
  cnt := 0
  frame := 0
  err := .none
  valid := false
  humX10 := 0
  tempX10 := 0
  rej := false
  pulse := { dur := 0, timedOut := false, lvls := .low, zero := false }
  timing := Timing.reset

/-- The start of a run: the block after Reset (70_reset_and_hazards.md R160), nothing scheduled. The values of the
model's own three fields are DESIGN CHOICE, log entry 10. -/
def State.reset : State where
  blk := Block.reset
  schedule := []
  readData := 0
  freeTicks := 0

end Sys2Proof.Machine
end

