-- ==== Sys2Proof/Machine/Flags.lean ====
section
/-! DEFINITION. Flags and decisions: `busy()`, the codes and the layouts of `STATUS` and `PULSE`, the comparisons of the
counters, `classify`, the checksum law and the sanity check. -/

namespace Sys2Proof.Machine

/-- The states in which a transaction runs (10_state.md R14, column "busy"). -/
def Protocol.busy : Protocol → Bool
  | .idle => false
  | .hostStart => true
  | .waitSensorAck => true
  | .waitSensorReady => true
  | .readingBits => true
  | .validating => true
  | .done => false
  | .failed => false

/-- `busy()` (10_state.md R19). -/
def Block.busy (b : Block) : Bool := b.st.busy || b.sst != .idle

/-- The codes of `ST` (10_state.md R14). -/
def Protocol.code : Protocol → BitVec 4
  | .idle => 0
  | .hostStart => 1
  | .waitSensorAck => 2
  | .waitSensorReady => 3
  | .readingBits => 4
  | .validating => 5
  | .done => 6
  | .failed => 7

/-- The codes of `SST` (10_state.md R16). -/
def Sampler.code : Sampler → BitVec 2
  | .idle => 0
  | .sleep => 1
  | .measure => 2
  | .sample => 3

/-- The codes of `ERR` (60_exceptions.md R140). -/
def ErrCode.code : ErrCode → BitVec 3
  | .none => 0
  | .noResponse => 1
  | .timeout => 2
  | .checksumMismatch => 3
  | .malformedFrame => 4

/-- The codes of `DIR` (10_state.md R10). -/
def Direction.bit : Direction → BitVec 1
  | .input => 0
  | .output => 1

/-- `STATUS`, register 1 (10_state.md R32): the fields from bit 31 down. -/
def Block.statusWord (b : Block) : Word :=
  0#12 ++ BitVec.ofBool b.rej ++ b.sst.code ++ b.bitcnt ++ b.err.code ++ BitVec.ofBool b.valid ++ b.dir.bit ++
    BitVec.ofBool b.busy ++ BitVec.ofBool b.ph ++ b.st.code

/-- `PULSE`, register 6 (10_state.md R21): the fields from bit 31 down. -/
def Pulse.word (p : Pulse) : Word :=
  0#5 ++ BitVec.ofBool p.zero ++ p.lvls.bit ++ BitVec.ofBool p.timedOut ++ p.dur

/-- `CNT + 1 >= limit`, the sum taken in 25 bits (44_validate_decode.md R136). -/
def reaches (cnt limit : Count) : Bool := limit.toNat ≤ cnt.toNat + 1

/-- `CNT >= limit` (44_validate_decode.md R136). -/
def atLimit (cnt limit : Count) : Bool := limit.toNat ≤ cnt.toNat

/-- `min(c + 1, 2^24 - 1)` (10_state.md R30). -/
def saturatingSucc (c : Count) : Count := if c = BitVec.allOnes 24 then c else c + 1

/-- What `classify` answers (44_validate_decode.md R130). -/
inductive Symbol where
  | bit (value : Bool)
  | invalid
  deriving DecidableEq, Repr

/-- `classify(d)` with the threshold `thresh` (44_validate_decode.md R130): a tie is a 0. -/
def classify (thresh d : Count) : Symbol :=
  if d = 0 then .invalid else if thresh.toNat < d.toNat then .bit true else .bit false

/-- `B0`, humidity_integer (44_validate_decode.md R131). -/
def byte0 (f : RawFrame) : Byte := f.extractLsb' 32 8

/-- `B1`, humidity_fraction (44_validate_decode.md R131). -/
def byte1 (f : RawFrame) : Byte := f.extractLsb' 24 8

/-- `B2`, temperature_integer (44_validate_decode.md R131). -/
def byte2 (f : RawFrame) : Byte := f.extractLsb' 16 8

/-- `B3`, temperature_fraction (44_validate_decode.md R131). -/
def byte3 (f : RawFrame) : Byte := f.extractLsb' 8 8

/-- `B4`, checksum (44_validate_decode.md R131). -/
def byte4 (f : RawFrame) : Byte := f.extractLsb' 0 8

/-- The checksum law (44_validate_decode.md R132). -/
def checksumValid (f : RawFrame) : Bool :=
  (byte4 f).toNat == ((byte0 f).toNat + (byte1 f).toNat + (byte2 f).toNat + (byte3 f).toNat) % 256

/-- An integer byte and a fraction byte as tenths (44_validate_decode.md R135; PRESUMED by the spec, log entry
14). -/
def tenths (integer fraction : Byte) : Nat := 10 * integer.toNat + fraction.toNat

/-- The sanity check (44_validate_decode.md R133). -/
def frameSane (f : RawFrame) : Bool :=
  (byte1 f).toNat ≤ Config.fracMax && (byte3 f).toNat ≤ Config.fracMax &&
    tenths (byte0 f) (byte1 f) ≤ Config.humX10Max

end Sys2Proof.Machine
end

