-- ==== Sys2Proof/Machine/Operands.lean ====
section
/-! DEFINITION. What the block reads: the wire (pin, level, sample) and the register file, and the timing registers by
number. -/

namespace Sys2Proof.Machine

/-- `pin_oe`, the output enable (10_state.md R11). -/
def Block.pinOe (b : Block) : Bool := b.dir == .output

/-- `pin_o`, the output level: Low at all times (10_state.md R11). -/
def Block.pinO (_ : Block) : Level := .low

/-- `pin_i`, the level on the wire (10_state.md R11, R12): Low when the block drives or something outside pulls low,
else the High of the pull-up, which is a precondition of the hardware (70_reset_and_hazards.md R162; DEDUCED,
log entry 12). -/
def Block.wire (b : Block) (sensorLow : Bool) : Level :=
  if b.pinOe then b.pinO else if sensorLow then .low else .high

/-- `sample()` (10_state.md R31) for a settling time of `tSettle` ticks. -/
def sampleAt (tSettle : Count) (sensorLow : Bool) (draw : Level) (b : Block) : Level :=
  match b.dir with
  | .output => .low
  | .input => if b.settle.toNat < tSettle.toNat then draw else b.wire sensorLow

/-- `sample()` (10_state.md R31). -/
def sample (sensorLow : Bool) (draw : Level) (b : Block) : Level := sampleAt Config.tSettleUs sensorLow draw b

/-- `T[n]` for `n` in 8 to 15; the other numbers hold no timing register and read as 0 (10_state.md R33). -/
def Timing.read (n : RegNum) (t : Timing) : Count :=
  match n.toNat with
  | 8 => t.tStart
  | 9 => t.tAckDelay
  | 10 => t.tRespWindow
  | 11 => t.tAckLowTo
  | 12 => t.tAckHighTo
  | 13 => t.tBitLowTo
  | 14 => t.tBitHighTo
  | 15 => t.tBitThresh
  | _ => 0

/-- `T[n] <- v` for `n` in 8 to 15; no other number is written (10_state.md R33). -/
def Timing.write (n : RegNum) (v : Count) (t : Timing) : Timing :=
  match n.toNat with
  | 8 => { t with tStart := v }
  | 9 => { t with tAckDelay := v }
  | 10 => { t with tRespWindow := v }
  | 11 => { t with tAckLowTo := v }
  | 12 => { t with tAckHighTo := v }
  | 13 => { t with tBitLowTo := v }
  | 14 => { t with tBitHighTo := v }
  | 15 => { t with tBitThresh := v }
  | _ => t

/-- The value `HostRead(n)` returns (20_memory.md R42). -/
def Block.readReg (n : RegNum) (b : Block) : Word :=
  match n.toNat with
  | 0 => 0
  | 1 => b.statusWord
  | 2 => b.humX10.setWidth 32
  | 3 => b.tempX10.setWidth 32
  | 4 => b.frame.extractLsb' 0 32
  | 5 => (b.frame.extractLsb' 32 8).setWidth 32
  | 6 => b.pulse.word
  | 7 => 0
  | _ => (b.timing.read n).setWidth 32

end Sys2Proof.Machine
end

