-- ==== Sys2Proof/Machine/Ops.lean ====
section
/-! DEFINITION. The operations the meanings share: the direction switch, the refused write, acceptance, the entry to
Failed and the clearing on the way out of it, the shift of a captured bit, the settle counter. -/

namespace Sys2Proof.Machine

/-- Acts on the block alone: the schedule and the host's side stay. -/
def State.onBlock (f : Block → Block) (s : State) : State := { s with blk := f s.blk }

/-- `DIR <- d` in a host step: `SETTLE <- 0` when the value changes, nothing at all when it does not
(10_state.md R13; 41_line_ops.md R80, R81). -/
def Block.switchDir (d : Direction) (b : Block) : Block :=
  if b.dir = d then b else { b with dir := d, settle := 0 }

/-- A refused host write: `REJ <- 1` and nothing else (60_exceptions.md R148). -/
def Block.reject (b : Block) : Block := { b with rej := true }

/-- The acceptance of an operation: only while `busy()` is false, and then in no time (30_encoding.md R61);
while busy the write is dropped and `REJ` set (20_memory.md R45; DESIGN CHOICE among what
93_implementation_defined.md U7 allows, log entry 6). What `exec` means beside a tick is DEDUCED, log entry 4. -/
def whenFree (f : Block → Block) (s : State) : StepResult :=
  if s.blk.busy then .next (s.onBlock Block.reject) else .next (s.onBlock f)

/-- `fail(code)`, the entry to Failed, the block's one exception (60_exceptions.md R142). -/
def Block.fail (code : ErrCode) (b : Block) : Block :=
  { b with st := .failed, err := code, frame := 0, bitcnt := 0, ph := false, cnt := 0 }

/-- The "full state reset" of a fresh transaction, the only way out of Failed and Done but for Reset
(43_protocol_read.md R100; 60_exceptions.md R145). -/
def Block.clearTransaction (b : Block) : Block :=
  { b with
    err := .none, valid := false, humX10 := 0, tempX10 := 0, frame := 0, bitcnt := 0, ph := false, cnt := 0 }

/-- `{FRAME[38:0], c}`: shift left by one, the new bit at bit 0 (43_protocol_read.md R108). The first bit of
a byte is thereby its most significant one (30_encoding.md R66; PRESUMED by the spec, log entry 14). -/
def shiftIn (f : RawFrame) (c : Bool) : RawFrame := f.extractLsb' 0 39 ++ BitVec.ofBool c

/-- Part (3) of a tick (10_state.md R30): `after` is the block after the action of the tick on `before`. -/
def settleTick (before after : Block) : Block :=
  if after.dir = before.dir then { after with settle := saturatingSucc before.settle } else { after with settle := 0 }

end Sys2Proof.Machine
end

