-- ==== Sys2Proof/Machine/Line.lean ====
section
/-! DEFINITION. The line operations `RELEASE`, `DRIVE_LOW`, `READ_LEVEL` (41_line_ops.md R80 to R82). -/

namespace Sys2Proof.Machine

/-- `RELEASE` (41_line_ops.md R80): complete at acceptance. -/
def execRelease (s : State) : StepResult := whenFree (Block.switchDir .input) s

/-- `DRIVE_LOW` (41_line_ops.md R81): complete at acceptance. -/
def execDriveLow (s : State) : StepResult := whenFree (Block.switchDir .output) s

/-- `READ_LEVEL` (41_line_ops.md R82): the acceptance; `tickReadLevel` completes it. -/
def execReadLevel (s : State) : StepResult := whenFree (fun b => { b with sst := .sample }) s

/-- The one tick of a `READ_LEVEL` (41_line_ops.md R82). -/
def tickReadLevel (lvl : Level) (b : Block) : Block :=
  { b with pulse := { b.pulse with lvls := lvl }, sst := .idle }

end Sys2Proof.Machine
end

