-- ==== Sys2Proof/Machine/Sampler.lean ====
section
/-! DEFINITION. The sampler operations `MEASURE_PULSE` and `SLEEP_US` (42_sampler_ops.md R90 to R92), and the tick of the
sampler. -/

namespace Sys2Proof.Machine

/-- `MEASURE_PULSE lvl, timeout_us` (42_sampler_ops.md R91): the acceptance; `tickMeasure` goes on. -/
def execMeasurePulse (lvl : Level) (timeoutUs : Count) (s : State) : StepResult :=
  whenFree (fun b => { b with sst := .measure, exp := lvl, lim := timeoutUs, cnt := 0 }) s

/-- `SLEEP_US duration_us` (42_sampler_ops.md R92): the acceptance; `tickSleep` goes on. -/
def execSleepUs (durationUs : Count) (s : State) : StepResult :=
  whenFree (fun b => { b with sst := .sleep, lim := durationUs, cnt := 0 }) s

/-- A tick of a `MEASURE_PULSE` (42_sampler_ops.md R91): the level test comes before the limit test (R90). The
increment stays within 24 bits in every reachable block (DEDUCED, log entry 7). -/
def tickMeasure (lvl : Level) (b : Block) : Block :=
  if lvl ≠ b.exp then
    { b with pulse := { b.pulse with dur := b.cnt, timedOut := false, zero := b.cnt == 0 }, sst := .idle }
  else if atLimit b.cnt b.lim then
    { b with pulse := { b.pulse with dur := b.cnt, timedOut := true, zero := false }, sst := .idle }
  else { b with cnt := b.cnt + 1 }

/-- A tick of a `SLEEP_US` (42_sampler_ops.md R92): the test is on the incremented count. -/
def tickSleep (b : Block) : Block :=
  { b with cnt := b.cnt + 1, sst := if reaches b.cnt b.lim then .idle else .sleep }

/-- A tick outside a transaction: the rule of `SST`, and nothing when it is `SIdle` (10_state.md R30). -/
def tickSampler (lvl : Level) (b : Block) : Block :=
  match b.sst with
  | .idle => b
  | .sleep => tickSleep b
  | .measure => tickMeasure lvl b
  | .sample => tickReadLevel lvl b

end Sys2Proof.Machine
end

