-- ==== Sys2Proof/Machine/Transaction.lean ====
section
/-! DEFINITION. `READ` (43_protocol_read.md R100 to R111, 44_validate_decode.md R134): the acceptance and the tick of each
state and phase. -/

namespace Sys2Proof.Machine

/-- The acceptance of a `READ` by a free block (43_protocol_read.md R100). -/
def Block.startRead (b : Block) : Block := { b.clearTransaction.switchDir .output with st := .hostStart }

/-- `READ` (43_protocol_read.md R100): the acceptance; the ticks below run the transaction. -/
def execRead (s : State) : StepResult := whenFree Block.startRead s

/-- HostStart (43_protocol_read.md R101). -/
def tickHostStart (b : Block) : Block :=
  if reaches b.cnt b.timing.tStart then { b with dir := .input, st := .waitSensorAck, ph := false, cnt := 0 }
  else { b with cnt := b.cnt + 1 }

/-- WaitSensorAck, delay phase (43_protocol_read.md R102). -/
def tickAckDelay (b : Block) : Block :=
  if reaches b.cnt b.timing.tAckDelay then { b with ph := true, cnt := 0 } else { b with cnt := b.cnt + 1 }

/-- WaitSensorAck, polling phase (43_protocol_read.md R103). -/
def tickAckPoll (lvl : Level) (b : Block) : Block :=
  match lvl with
  | .low => { b with st := .waitSensorReady, ph := false, cnt := 1 }
  | .high => if atLimit b.cnt b.timing.tRespWindow then b.fail .noResponse else { b with cnt := b.cnt + 1 }

/-- WaitSensorReady, low half (43_protocol_read.md R105). -/
def tickReadyLow (lvl : Level) (b : Block) : Block :=
  match lvl with
  | .high => { b with ph := true, cnt := 1 }
  | .low => if atLimit b.cnt b.timing.tAckLowTo then b.fail .timeout else { b with cnt := b.cnt + 1 }

/-- WaitSensorReady, high half (43_protocol_read.md R106). -/
def tickReadyHigh (lvl : Level) (b : Block) : Block :=
  match lvl with
  | .low => { b with st := .readingBits, ph := false, cnt := 1 }
  | .high => if atLimit b.cnt b.timing.tAckHighTo then b.fail .timeout else { b with cnt := b.cnt + 1 }

/-- ReadingBits, bit-start marker (43_protocol_read.md R107). -/
def tickBitLow (lvl : Level) (b : Block) : Block :=
  match lvl with
  | .high => { b with ph := true, cnt := 1 }
  | .low => if atLimit b.cnt b.timing.tBitLowTo then b.fail .timeout else { b with cnt := b.cnt + 1 }

/-- The capture of the data bit `c` (43_protocol_read.md R108): the 40th ends the frame, each other starts the next
marker. `BITCNT` stays within 0 to 40 in every reachable block (DEDUCED, log entry 7). -/
def Block.capture (c : Bool) (b : Block) : Block :=
  if b.bitcnt + 1 = 40 then
    { b with
      frame := shiftIn b.frame c, bitcnt := b.bitcnt + 1, st := .validating, ph := false, cnt := 0 }
  else { b with frame := shiftIn b.frame c, bitcnt := b.bitcnt + 1, ph := false, cnt := 1 }

/-- ReadingBits, data pulse (43_protocol_read.md R108, R111). -/
def tickBitHigh (lvl : Level) (b : Block) : Block :=
  match lvl with
  | .low =>
    match classify b.timing.tBitThresh b.cnt with
    | .invalid => b.fail .malformedFrame
    | .bit c => b.capture c
  | .high => if atLimit b.cnt b.timing.tBitHighTo then b.fail .timeout else { b with cnt := b.cnt + 1 }

/-- Validating (44_validate_decode.md R134): the checksum is tested first. -/
def tickValidate (b : Block) : Block :=
  if !checksumValid b.frame then b.fail .checksumMismatch
  else if !frameSane b.frame then b.fail .malformedFrame
  else
    { b with
      humX10 := BitVec.ofNat 11 (tenths (byte0 b.frame) (byte1 b.frame))
      tempX10 := BitVec.ofNat 12 (tenths (byte2 b.frame) (byte3 b.frame))
      valid := true, st := .done, ph := false, cnt := 0 }

/-- Part (2) of a tick (10_state.md R30), the sample being `lvl`. What it does in blocks that no run reaches is
DEDUCED, log entry 8. -/
def tickAction (lvl : Level) (b : Block) : Block :=
  match b.st with
  | .idle => tickSampler lvl b
  | .hostStart => tickHostStart b
  | .waitSensorAck => if b.ph then tickAckPoll lvl b else tickAckDelay b
  | .waitSensorReady => if b.ph then tickReadyHigh lvl b else tickReadyLow lvl b
  | .readingBits => if b.ph then tickBitHigh lvl b else tickBitLow lvl b
  | .validating => tickValidate b
  | .done => tickSampler lvl b
  | .failed => tickSampler lvl b

/-- A tick whose sample is `lvl` (10_state.md R30). -/
def tickOn (lvl : Level) (b : Block) : Block := settleTick b (tickAction lvl b)

/-- `Tick(sensor_low, draw)` (10_state.md R30). -/
def tick (sensorLow : Bool) (draw : Level) (b : Block) : Block := tickOn (sample sensorLow draw b) b

end Sys2Proof.Machine
end

