-- ==== Sys2Proof/Machine/Dispatch.lean ====
section
/-! DEFINITION. One arm for each operation. -/

namespace Sys2Proof.Machine

def exec (i : Instr) (s : State) : Host.Outcome State Fault Refusal :=
  match i with
  | .release => Sys2Proof.Machine.execRelease s
  | .driveLow => Sys2Proof.Machine.execDriveLow s
  | .readLevel => Sys2Proof.Machine.execReadLevel s
  | .measurePulse lvl timeoutUs => Sys2Proof.Machine.execMeasurePulse lvl timeoutUs s
  | .sleepUs durationUs => Sys2Proof.Machine.execSleepUs durationUs s
  | .read => Sys2Proof.Machine.execRead s

end Sys2Proof.Machine
end

