-- ==== Sys2Proof/Machine/HostPort.lean ====
section
/-! DEFINITION. The host's side and the four kinds of run step: `HostRead`, `HostWrite`, `issue`, `Reset`, `Tick`
(00_scope.md R5; 20_memory.md R42, R43; 30_encoding.md R61; 70_reset_and_hazards.md R160). -/

namespace Sys2Proof.Machine

/-- `issue(v)` (30_encoding.md R61): the operation the word names, or `REJ <- 1` for an illegal word (R64). -/
def issue (v : Word) (s : State) : StepResult :=
  match decode v with
  | .ok i => exec i s
  | .error _ => .next (s.onBlock Block.reject)

/-- `HostRead(n)` (20_memory.md R42): the host gets the value, the block stays. -/
def hostRead (n : RegNum) (s : State) : StepResult := .next { s with readData := s.blk.readReg n }

/-- The write of a timing register: bits 31:24 are ignored (20_memory.md R43). -/
def Block.writeTiming (n : RegNum) (v : Word) (b : Block) : Block :=
  { b with timing := b.timing.write n (v.extractLsb' 0 24) }

/-- `HostWrite(n, v)` (20_memory.md R43). -/
def hostWrite (n : RegNum) (v : Word) (s : State) : StepResult :=
  if n = 0 then
    if s.blk.busy then .next (s.onBlock Block.reject) else issue v s
  else if 8 ≤ n.toNat then
    if s.blk.busy then .next (s.onBlock Block.reject) else .next (s.onBlock (Block.writeTiming n v))
  else .next s

/-- One run step (00_scope.md R5). `Reset` puts the whole block, and only the block, at its reset values, in any
state (70_reset_and_hazards.md R160, R161). -/
def perform (e : RunStep) (s : State) : StepResult :=
  match e with
  | .reset => .next (s.onBlock fun _ => Block.reset)
  | .hostRead n => hostRead n s
  | .hostWrite n v => hostWrite n v s
  | .tick sensorLow draw => .next (s.onBlock (tick sensorLow draw))

/-- A tick nothing was scheduled for: its two inputs are free values (DESIGN CHOICE, log entry 2). -/
def freeTick (s : State) : StepResult :=
  .next { s with
    blk := tick (Config.freeSensorLow s.freeTicks) (Config.freeDraw s.freeTicks) s.blk
    freeTicks := s.freeTicks + 1 }

/-- The next run step: the first of the schedule, or a free tick (log entries 1 and 2). -/
def nextRunStep (s : State) : StepResult :=
  match s.schedule with
  | [] => freeTick s
  | e :: rest => perform e { s with schedule := rest }

end Sys2Proof.Machine
end

