-- ==== Sys2Proof/Machine/Step.lean ====
section
/-! DEFINITION. One step of a run, and a command word laid where the next step takes it. -/

namespace Sys2Proof.Machine

/-- One step of a run (00_scope.md R5). -/
def step : State → Host.Outcome State Fault Refusal := nextRunStep

/-- `s` with the write of the command word `w` to `CMD` as its next run step (30_encoding.md R60; DESIGN CHOICE, log
entry 9). -/
def State.withFetchWord (s : State) (nbits w : Nat) : State :=
  { s with schedule := .hostWrite 0 (tableWord nbits w) :: s.schedule }

end Sys2Proof.Machine
end

