-- ==== Sys2Proof/Safety.lean ====
section
/-! DEFINITION. The terms the claims use: runs of ticks, the invariant of every reachable block, the arrows of the
protocol, the length of a transaction, the waveform a sensor answers with. -/

namespace Sys2Proof.Machine

/-- The inputs of one tick: `sensor_low` and `draw` (00_scope.md R5). -/
abbrev TickInput := Bool × Level

/-- The block after ticks with the given inputs. -/
def ticks (inputs : List TickInput) (b : Block) : Block := inputs.foldl (fun b i => tick i.1 i.2 b) b

/-- The block after ticks whose samples are the given levels. -/
def sampledTicks (levels : List Level) (b : Block) : Block := levels.foldl (fun b lvl => tickOn lvl b) b

/-- Ticks as a schedule. -/
def tickSteps (inputs : List TickInput) : List RunStep := inputs.map fun i => .tick i.1 i.2

/-- How many ticks a wait of `n` lasts, and the longest chained pulse a limit of `n` lets pass
(10_state.md R22; 43_protocol_read.md R104). -/
def duration (n : Count) : Nat := max n.toNat 1

/-- The register relations that hold in every reachable block (10_state.md R15 to R18, R20; 41_line_ops.md R83;
43_protocol_read.md R109). No step leaves them. -/
structure Block.Inv (b : Block) : Prop where
  /-- `PH` is 0 but in the three states that have two phases (R15). -/
  phase : b.ph = true → b.st = .waitSensorAck ∨ b.st = .waitSensorReady ∨ b.st = .readingBits
  /-- Fewer than 40 bits are captured while bits are read (R15). -/
  bitcntReading : b.st = .readingBits → b.bitcnt.toNat < 40
  /-- `BITCNT = 40` in Validating and Done (R15). -/
  bitcntFull : b.st = .validating ∨ b.st = .done → b.bitcnt = 40
  /-- `BITCNT = 0` in every other state (R15). -/
  bitcntZero : b.st ≠ .readingBits → b.st ≠ .validating → b.st ≠ .done → b.bitcnt = 0
  /-- No sampler operation runs during a transaction (R16). -/
  samplerIdle : b.st.busy = true → b.sst = .idle
  /-- `VALID` is 1 exactly in Done (R20). -/
  validIffDone : b.valid = true ↔ b.st = .done
  /-- `ERR` holds an error exactly in Failed (R109). -/
  errIffFailed : b.err ≠ .none ↔ b.st = .failed
  /-- Outside Done no reading shows (R20). -/
  noStaleReading : b.st ≠ .done → b.humX10 = 0 ∧ b.tempX10 = 0
  /-- In Done the frame passed both tests and the reading is the frame's (R134, R135). -/
  reading : b.st = .done → checksumValid b.frame = true ∧ frameSane b.frame = true ∧
    b.humX10.toNat = tenths (byte0 b.frame) (byte1 b.frame) ∧
    b.tempX10.toNat = tenths (byte2 b.frame) (byte3 b.frame)
  /-- `FRAME` holds nothing but the captured bits (R136: only zeros are shifted out). -/
  frameBound : b.frame.toNat < 2 ^ b.bitcnt.toNat
  /-- The wire is driven during HostStart (R100). -/
  drivenInStart : b.st = .hostStart → b.dir = .output
  /-- The wire is released from then to the end of the transaction (R83). -/
  releasedAfter : b.st.busy = true → b.st ≠ .hostStart → b.dir = .input
  /-- The start interval is not over (R17, R101). -/
  cntStart : b.st = .hostStart → b.cnt.toNat < duration b.timing.tStart
  /-- The delay is not over (R17, R102). -/
  cntDelay : b.st = .waitSensorAck → b.ph = false → b.cnt.toNat < duration b.timing.tAckDelay
  /-- The response window is not over (R17, R103). -/
  cntPoll : b.st = .waitSensorAck → b.ph = true → b.cnt.toNat ≤ b.timing.tRespWindow.toNat
  /-- A chained pulse has at least the sample that began it and is within its limit (R104). -/
  cntAckLow : b.st = .waitSensorReady → b.ph = false →
    0 < b.cnt.toNat ∧ b.cnt.toNat ≤ duration b.timing.tAckLowTo
  cntAckHigh : b.st = .waitSensorReady → b.ph = true →
    0 < b.cnt.toNat ∧ b.cnt.toNat ≤ duration b.timing.tAckHighTo
  cntBitLow : b.st = .readingBits → b.ph = false →
    0 < b.cnt.toNat ∧ b.cnt.toNat ≤ duration b.timing.tBitLowTo
  cntBitHigh : b.st = .readingBits → b.ph = true →
    0 < b.cnt.toNat ∧ b.cnt.toNat ≤ duration b.timing.tBitHighTo
  /-- A running sleep is not over (R17, R92). -/
  cntSleep : b.sst = .sleep → b.cnt.toNat < duration b.lim
  /-- A running measurement is within its limit (R17, R91). -/
  cntMeasure : b.sst = .measure → b.cnt.toNat ≤ b.lim.toNat
  /-- `PULSE.ZERO` is 1 only beside a duration of 0 and no timeout (R21). -/
  pulseZero : b.pulse.zero = true → b.pulse.dur = 0 ∧ b.pulse.timedOut = false

/-- The arrows a tick with the sample `lvl` takes: from `b` to a state, a phase, an error code, one constructor for
each row of 43_protocol_read.md R112 that a tick makes. -/
inductive TickArrow (lvl : Level) (b : Block) : Protocol → Bool → ErrCode → Prop where
  | startOver : b.st = .hostStart → b.timing.tStart.toNat ≤ b.cnt.toNat + 1 →
      TickArrow lvl b .waitSensorAck false b.err
  | delayOver : b.st = .waitSensorAck → b.ph = false → b.timing.tAckDelay.toNat ≤ b.cnt.toNat + 1 →
      TickArrow lvl b .waitSensorAck true b.err
  | sensorAnswered : b.st = .waitSensorAck → b.ph = true → lvl = .low →
      TickArrow lvl b .waitSensorReady false b.err
  | noResponse : b.st = .waitSensorAck → b.ph = true → lvl = .high →
      b.timing.tRespWindow.toNat ≤ b.cnt.toNat → TickArrow lvl b .failed false .noResponse
  | ackReleased : b.st = .waitSensorReady → b.ph = false → lvl = .high →
      TickArrow lvl b .waitSensorReady true b.err
  | ackLowTimeout : b.st = .waitSensorReady → b.ph = false → lvl = .low →
      b.timing.tAckLowTo.toNat ≤ b.cnt.toNat → TickArrow lvl b .failed false .timeout
  | firstMarker : b.st = .waitSensorReady → b.ph = true → lvl = .low →
      TickArrow lvl b .readingBits false b.err
  | ackHighTimeout : b.st = .waitSensorReady → b.ph = true → lvl = .high →
      b.timing.tAckHighTo.toNat ≤ b.cnt.toNat → TickArrow lvl b .failed false .timeout
  | markerOver : b.st = .readingBits → b.ph = false → lvl = .high → TickArrow lvl b .readingBits true b.err
  | markerTimeout : b.st = .readingBits → b.ph = false → lvl = .low →
      b.timing.tBitLowTo.toNat ≤ b.cnt.toNat → TickArrow lvl b .failed false .timeout
  | nextMarker : b.st = .readingBits → b.ph = true → lvl = .low → b.cnt ≠ 0 → b.bitcnt ≠ 39 →
      TickArrow lvl b .readingBits false b.err
  | lastBit : b.st = .readingBits → b.ph = true → lvl = .low → b.cnt ≠ 0 → b.bitcnt = 39 →
      TickArrow lvl b .validating false b.err
  | dataTimeout : b.st = .readingBits → b.ph = true → lvl = .high →
      b.timing.tBitHighTo.toNat ≤ b.cnt.toNat → TickArrow lvl b .failed false .timeout
  | zeroDuration : b.st = .readingBits → b.ph = true → lvl = .low → b.cnt = 0 →
      TickArrow lvl b .failed false .malformedFrame
  | accepted : b.st = .validating → checksumValid b.frame = true → frameSane b.frame = true →
      TickArrow lvl b .done false b.err
  | checksumDiffers : b.st = .validating → checksumValid b.frame = false →
      TickArrow lvl b .failed false .checksumMismatch
  | notSane : b.st = .validating → checksumValid b.frame = true → frameSane b.frame = false →
      TickArrow lvl b .failed false .malformedFrame

/-- The chained pulse a block measures: its level and its limit register (43_protocol_read.md R104 to R108). -/
def Block.chainedPulse (b : Block) : Option (Level × Count) :=
  match b.st, b.ph with
  | .waitSensorReady, false => some (.low, b.timing.tAckLowTo)
  | .waitSensorReady, true => some (.high, b.timing.tAckHighTo)
  | .readingBits, false => some (.low, b.timing.tBitLowTo)
  | .readingBits, true => some (.high, b.timing.tBitHighTo)
  | _, _ => none

/-- The length of the longest possible transaction in ticks (70_reset_and_hazards.md R171, last row). -/
def longestTransaction (t : Timing) : Nat :=
  duration t.tStart + duration t.tAckDelay + (t.tRespWindow.toNat + 1) + duration t.tAckLowTo +
    duration t.tAckHighTo + 40 * (duration t.tBitLowTo + duration t.tBitHighTo) + 1

/-- What a transaction reads or writes: the block less `EXP`, `LIM`, `REJ` and `PULSE` (43_protocol_read.md R110). -/
def Block.transactionView (b : Block) : Block :=
  { b with
    exp := .low, lim := 0, rej := false, pulse := { dur := 0, timedOut := false, lvls := .low, zero := false } }

/-- A sensor's answer from the first polled sample, in ticks: High samples before it pulls low, the acknowledgement
low and high, and for each bit a marker and a data pulse (43_protocol_read.md R114). -/
structure Waveform where
  wait : Nat
  ackLow : Nat
  ackHigh : Nat
  bits : List (Nat × Nat)
  deriving DecidableEq, Repr

/-- The level of the wire at each tick of the answer, with the falling edge that ends the last data pulse
(43_protocol_read.md R111, R114). -/
def Waveform.levels (w : Waveform) : List Level :=
  List.replicate w.wait .high ++ List.replicate w.ackLow .low ++ List.replicate w.ackHigh .high ++
    w.bits.flatMap (fun p => List.replicate p.1 .low ++ List.replicate p.2 .high) ++ [.low]

/-- No pulse of the answer is missing and none exceeds its limit (43_protocol_read.md R104, R114). -/
structure Waveform.Fits (w : Waveform) (t : Timing) : Prop where
  wait : w.wait ≤ t.tRespWindow.toNat
  ackLow : 1 ≤ w.ackLow ∧ w.ackLow ≤ duration t.tAckLowTo
  ackHigh : 1 ≤ w.ackHigh ∧ w.ackHigh ≤ duration t.tAckHighTo
  fortyBits : w.bits.length = 40
  markers : ∀ p ∈ w.bits, 1 ≤ p.1 ∧ p.1 ≤ duration t.tBitLowTo
  pulses : ∀ p ∈ w.bits, 1 ≤ p.2 ∧ p.2 ≤ duration t.tBitHighTo

end Sys2Proof.Machine
end

