-- ==== Sys2Proof/Certificates/Slice0/Obligations.lean ====
section
/-! DEFINITION. The statements for the provers, one for each rule or group of rules of spec/ that says what an operation
or the block does. -/

open Sys2Proof Sys2Proof.Machine

/-! ## The command word -/

/-- Every word written out in 30_encoding.md, "Worked encodings", and in 95_test_vectors.md V-E1 to V-E18. -/
def Obligations.SpecWordsDecodeAsListed : Prop :=
  decode 0x00000001 = .ok .release ∧ decode 0x00000002 = .ok .driveLow ∧ decode 0x00000003 = .ok .readLevel ∧
  decode 0x00006404 = .ok (.measurePulse .low 100) ∧ decode 0x00006414 = .ok (.measurePulse .high 100) ∧
  decode 0x00004604 = .ok (.measurePulse .low 70) ∧ decode 0x00005A14 = .ok (.measurePulse .high 90) ∧
  decode 0x00000014 = .ok (.measurePulse .high 0) ∧ decode 0x00465005 = .ok (.sleepUs 18000) ∧
  decode 0x00001E05 = .ok (.sleepUs 30) ∧
  decode 0xFFFFFF05 = .ok (.sleepUs 16777215) ∧ decode 0x00000006 = .ok .read ∧ decode 0xFFFFFF16 = .ok .read ∧
  decode 0x00000000 = .error (.illegalOp 0) ∧ decode 0x00000007 = .error (.illegalOp 7) ∧
  decode 0x0000000F = .error (.illegalOp 15) ∧ decode 0x00000026 = .error (.reservedBits 1) ∧
  decode 0x00000081 = .error (.reservedBits 4)

/-- Decode and encode agree on every operation and every operand value; the encoder emits a well-formed word whose
unused fields are 0 (R60, R62, R65, R69); and a word that decodes is the encoder's word but for the fields its
operation ignores (R64). -/
def Obligations.DecodeAndEncodeAgree : Prop :=
  (∀ i : Instr, decode (encode i) = .ok i ∧ wordLegal (encode i) = true) ∧
  ∀ (w : Word) (i : Instr), decode w = .ok i →
    (encode i).toNat = match i with
      | .measurePulse _ _ => w.toNat
      | .sleepUs _ => 256 * (w.toNat / 256) + w.toNat % 16
      | .release | .driveLow | .readLevel | .read => w.toNat % 16

/-- R62: the match and mask of the opcode map select exactly the words of each row, operands from bits 4 and 31:8. -/
def Obligations.OpcodeMapSelectsByMatchAndMask : Prop :=
  ∀ w : Word,
    (decode w = .ok .release ↔ w &&& 0x000000EF = 0x00000001) ∧
    (decode w = .ok .driveLow ↔ w &&& 0x000000EF = 0x00000002) ∧
    (decode w = .ok .readLevel ↔ w &&& 0x000000EF = 0x00000003) ∧
    (∀ l a, decode w = .ok (.measurePulse l a) ↔
      w &&& 0x000000EF = 0x00000004 ∧ (l = .high ↔ w.getLsbD 4 = true) ∧ a.toNat = w.toNat / 256) ∧
    (∀ d, decode w = .ok (.sleepUs d) ↔ w &&& 0x000000EF = 0x00000005 ∧ d.toNat = w.toNat / 256) ∧
    (decode w = .ok .read ↔ w &&& 0x000000EF = 0x00000006)

/-- R64: which words are illegal; an illegal word written to `CMD` of a free block changes nothing but `REJ`; the
fields an operation does not use change nothing. -/
def Obligations.IllegalWordsOnlySetRej : Prop :=
  (∀ w : Word, (∃ e, decode w = .error e) ↔
    (w.toNat % 16 = 0 ∨ 7 ≤ w.toNat % 16) ∨ w.toNat / 32 % 8 ≠ 0) ∧
  (∀ w : Word, (∃ e, decode w = .error e) ↔ wordLegal w = false) ∧
  (∀ (s : State) (w : Word) (rest : List RunStep) (e : DecodeError),
    s.schedule = .hostWrite 0 w :: rest → s.blk.busy = false → decode w = .error e →
    step s = .next { s with schedule := rest, blk := { s.blk with rej := true } }) ∧
  (∀ w v : Word, w.toNat % 16 = v.toNat % 16 → w.toNat / 32 % 8 = v.toNat / 32 % 8 →
    (w.toNat % 16 = 4 → w = v) → (w.toNat % 16 = 5 → w.toNat / 256 = v.toNat / 256) → decode w = decode v)

/-! ## A step of a run -/

/-- A write of a command word that decodes to `i` runs `i`. On a free block that is the operation's acceptance (R43,
R61). On a busy block it is the refused write of R45, and that `exec` speaks of a busy block at all is the model's
reading (DEDUCED, log entry 4). The second clause says the same of the word laid by `withFetchWord`, which is the
model's own (DESIGN CHOICE, log entry 9), as is the schedule (log entry 1). -/
def Obligations.StepRunsTheDecodedCommand : Prop :=
  (∀ (s : State) (v : Word) (rest : List RunStep) (i : Instr),
    s.schedule = .hostWrite 0 v :: rest → decode v = .ok i → step s = exec i { s with schedule := rest }) ∧
  ∀ (s : State) (i : Instr), step (s.withFetchWord 32 (encode i).toNat) = exec i s

/-- The four kinds of run step of R5, taken in the order of the schedule, and the tick with free inputs when nothing
is scheduled. The schedule and the free tick are the MODEL's own (log entries 1 and 2). -/
def Obligations.StepPerformsTheNextRunStep : Prop :=
  ∀ s : State,
    (s.schedule = [] → step s = .next { s with
      blk := tick (Config.freeSensorLow s.freeTicks) (Config.freeDraw s.freeTicks) s.blk
      freeTicks := s.freeTicks + 1 }) ∧
    ∀ rest : List RunStep,
      (∀ sl draw, s.schedule = .tick sl draw :: rest →
        step s = .next { s with schedule := rest, blk := tick sl draw s.blk }) ∧
      (s.schedule = .reset :: rest → step s = .next { s with schedule := rest, blk := State.reset.blk }) ∧
      (∀ n, s.schedule = .hostRead n :: rest →
        step s = .next { s with schedule := rest, readData := s.blk.readReg n }) ∧
      (∀ n v, s.schedule = .hostWrite n v :: rest → step s = hostWrite n v { s with schedule := rest })

/-- No step stops the machine, in any state, and neither does any number of them: "Nothing in this subsystem is fatal"
(R146), and no access faults (R46). -/
def Obligations.NoStepEverStops : Prop :=
  (∀ s : State, ∃ t, step s = .next t) ∧ ∀ (k : Nat) (s : State), ∃ t, Sys2Proof.core.run k s = .next t

/-- While the block is busy every command is dropped: no state changes but `REJ` (R45, R84). That `exec` speaks
of a busy block at all is the model's reading (log entries 4 and 6). -/
def Obligations.BusyBlockDropsEveryCommand : Prop :=
  ∀ (i : Instr) (s : State), s.blk.busy = true → exec i s = .next { s with blk := { s.blk with rej := true } }

/-! ## The register file -/

/-- R42: what `HostRead` returns for each of the 16 numbers, and that nothing of the block changes. -/
def Obligations.HostReadReturnsTheRegister : Prop :=
  ∀ (s : State) (n : RegNum) (rest : List RunStep), s.schedule = .hostRead n :: rest →
    ∃ v : Word, step s = .next { s with schedule := rest, readData := v } ∧
      (n = 0 → v = 0) ∧ (n = 1 → v = s.blk.statusWord) ∧ (n = 2 → v.toNat = s.blk.humX10.toNat) ∧
      (n = 3 → v.toNat = s.blk.tempX10.toNat) ∧ (n = 4 → v.toNat = s.blk.frame.toNat % 2 ^ 32) ∧
      (n = 5 → v.toNat = s.blk.frame.toNat / 2 ^ 32) ∧ (n = 6 → v = s.blk.pulse.word) ∧ (n = 7 → v = 0) ∧
      (n = 8 → v.toNat = s.blk.timing.tStart.toNat) ∧ (n = 9 → v.toNat = s.blk.timing.tAckDelay.toNat) ∧
      (n = 10 → v.toNat = s.blk.timing.tRespWindow.toNat) ∧ (n = 11 → v.toNat = s.blk.timing.tAckLowTo.toNat) ∧
      (n = 12 → v.toNat = s.blk.timing.tAckHighTo.toNat) ∧ (n = 13 → v.toNat = s.blk.timing.tBitLowTo.toNat) ∧
      (n = 14 → v.toNat = s.blk.timing.tBitHighTo.toNat) ∧ (n = 15 → v.toNat = s.blk.timing.tBitThresh.toNat)

/-- R32: a read of register 1 returns `STATUS` and changes nothing, a write of it is ignored; and `STATUS` field by
field, the codes of R14, R16, R10 and R140 written out. -/
def Obligations.StatusShowsTheState : Prop :=
  (∀ (s : State) (rest : List RunStep),
    (s.schedule = .hostRead 1 :: rest → step s = .next { s with schedule := rest, readData := s.blk.statusWord }) ∧
    ∀ v : Word, s.schedule = .hostWrite 1 v :: rest → step s = .next { s with schedule := rest }) ∧
  ∀ b : Block,
    b.statusWord.toNat % 16 = (match b.st with
      | .idle => 0 | .hostStart => 1 | .waitSensorAck => 2 | .waitSensorReady => 3 | .readingBits => 4
      | .validating => 5 | .done => 6 | .failed => 7) ∧
    b.statusWord.getLsbD 4 = b.ph ∧
    (b.statusWord.getLsbD 5 = true ↔ (b.st = .hostStart ∨ b.st = .waitSensorAck ∨ b.st = .waitSensorReady ∨
      b.st = .readingBits ∨ b.st = .validating) ∨ b.sst ≠ .idle) ∧
    (b.statusWord.getLsbD 6 = true ↔ b.dir = .output) ∧
    b.statusWord.getLsbD 7 = b.valid ∧
    b.statusWord.toNat / 2 ^ 8 % 8 = (match b.err with
      | .none => 0 | .noResponse => 1 | .timeout => 2 | .checksumMismatch => 3 | .malformedFrame => 4) ∧
    b.statusWord.toNat / 2 ^ 11 % 64 = b.bitcnt.toNat ∧
    b.statusWord.toNat / 2 ^ 17 % 4 = (match b.sst with | .idle => 0 | .sleep => 1 | .measure => 2 | .sample => 3) ∧
    b.statusWord.getLsbD 19 = b.rej ∧ b.statusWord.toNat < 2 ^ 20

/-- The layout of register 6, `PULSE` (10_state.md section 3, table). -/
def Obligations.PulseWordShowsTheResults : Prop :=
  ∀ p : Pulse, p.word.toNat % 2 ^ 24 = p.dur.toNat ∧ p.word.getLsbD 24 = p.timedOut ∧
    (p.word.getLsbD 25 = true ↔ p.lvls = .high) ∧ p.word.getLsbD 26 = p.zero ∧ p.word.toNat < 2 ^ 27

/-- R43: what a host write does, for each of the 16 numbers. -/
def Obligations.HostWriteFollowsTheRule : Prop :=
  ∀ (s : State) (n : RegNum) (v : Word) (rest : List RunStep), s.schedule = .hostWrite n v :: rest →
    (n = 0 → s.blk.busy = true → step s = .next { s with schedule := rest, blk := { s.blk with rej := true } }) ∧
    (n = 0 → s.blk.busy = false → step s = issue v { s with schedule := rest }) ∧
    (8 ≤ n.toNat → s.blk.busy = true →
      step s = .next { s with schedule := rest, blk := { s.blk with rej := true } }) ∧
    (8 ≤ n.toNat → s.blk.busy = false → ∃ u : Timing,
      step s = .next { s with schedule := rest, blk := { s.blk with timing := u } } ∧
      (u.read n).toNat = v.toNat % 2 ^ 24 ∧ ∀ m : RegNum, m ≠ n → u.read m = s.blk.timing.read m) ∧
    (1 ≤ n.toNat → n.toNat ≤ 7 → step s = .next { s with schedule := rest })

/-- R45: while busy, a write to `CMD` or to a timing register changes nothing but `REJ`; the timing registers do not
change under an operation; `REJ` stays 1 until Reset. -/
def Obligations.BusyWritesAreDroppedAndRejIsSticky : Prop :=
  (∀ (s : State) (n : RegNum) (v : Word) (rest : List RunStep), s.schedule = .hostWrite n v :: rest →
    s.blk.busy = true → (n = 0 ∨ 8 ≤ n.toNat) →
    step s = .next { s with schedule := rest, blk := { s.blk with rej := true } }) ∧
  (∀ s t : State, step s = .next t → s.schedule.head? ≠ some .reset → s.blk.busy = true →
    t.blk.timing = s.blk.timing) ∧
  (∀ s t : State, step s = .next t → s.schedule.head? ≠ some .reset → s.blk.rej = true → t.blk.rej = true)

/-! ## Reset -/

/-- R35, R160: every register after Reset, in any state; the run starts there; `STATUS` reads 0. -/
def Obligations.ResetSetsEveryRegister : Prop :=
  (∀ (s : State) (rest : List RunStep), s.schedule = .reset :: rest →
    step s = .next { s with
      schedule := rest
      blk := {
        dir := .input, settle := 0, st := .idle, ph := false, bitcnt := 0, sst := .idle, exp := .low, lim := 0,
        cnt := 0, frame := 0, err := .none, valid := false, humX10 := 0, tempX10 := 0, rej := false,
        pulse := { dur := 0, timedOut := false, lvls := .low, zero := false },
        timing := {
          tStart := 18000, tAckDelay := 30, tRespWindow := 100, tAckLowTo := 100, tAckHighTo := 100,
          tBitLowTo := 70, tBitHighTo := 90, tBitThresh := 49 } } }) ∧
  (∀ s t : State, s.schedule.head? = some .reset → step s = .next t →
    t.blk = State.reset.blk ∧ t.blk.statusWord = 0 ∧ t.blk.pinOe = false ∧ t.blk.pinO = .low ∧ t.blk.busy = false)

/-! ## The wire -/

/-- R12: the level on the wire. -/
def Obligations.WireIsLowWhenAnyonePullsLow : Prop :=
  ∀ (b : Block) (sensorLow : Bool),
    (b.dir = .output ∨ sensorLow = true → b.wire sensorLow = .low) ∧
    (¬(b.dir = .output ∨ sensorLow = true) → b.wire sensorLow = .high)

/-- The block never drives High and drives at all only while `DIR = Output` (R11; R83 (a)). -/
def Obligations.PinDrivesLowOrNothing : Prop :=
  ∀ b : Block, b.pinO = .low ∧ (b.pinOe = true ↔ b.dir = .output)

/-- R31: the sample of a tick, for a settling time that is at least 1. -/
def Obligations.SampleFollowsTheRule : Prop :=
  1 ≤ Config.tSettleUs.toNat ∧
  ∀ (b : Block) (sensorLow : Bool) (draw : Level),
    (b.dir = .output → sample sensorLow draw b = .low) ∧
    (b.dir = .input → b.settle.toNat < Config.tSettleUs.toNat → sample sensorLow draw b = draw) ∧
    (b.dir = .input → Config.tSettleUs.toNat ≤ b.settle.toNat →
      sample sensorLow draw b = if sensorLow then .low else .high)

/-- The order of a tick (10_state.md R30). (1) and (2): the one rule that is performed, chosen by `ST` and `PH` in a
transaction and by `SST` outside one, with the sample of the state before the tick. (3): the settle counter. A tick of
a free block changes nothing but `SETTLE`; a tick of a transaction leaves the sampler alone and a tick outside a
transaction leaves the transaction alone; a tick of a rule that does not sample does not depend on its inputs. -/
def Obligations.TickFollowsTheOrder : Prop :=
  ∀ (b : Block) (sensorLow : Bool) (draw : Level),
    ((b.st = .hostStart → tick sensorLow draw b = settleTick b (tickHostStart b)) ∧
      (b.st = .waitSensorAck → b.ph = false → tick sensorLow draw b = settleTick b (tickAckDelay b)) ∧
      (b.st = .waitSensorAck → b.ph = true →
        tick sensorLow draw b = settleTick b (tickAckPoll (sample sensorLow draw b) b)) ∧
      (b.st = .waitSensorReady → b.ph = false →
        tick sensorLow draw b = settleTick b (tickReadyLow (sample sensorLow draw b) b)) ∧
      (b.st = .waitSensorReady → b.ph = true →
        tick sensorLow draw b = settleTick b (tickReadyHigh (sample sensorLow draw b) b)) ∧
      (b.st = .readingBits → b.ph = false →
        tick sensorLow draw b = settleTick b (tickBitLow (sample sensorLow draw b) b)) ∧
      (b.st = .readingBits → b.ph = true →
        tick sensorLow draw b = settleTick b (tickBitHigh (sample sensorLow draw b) b)) ∧
      (b.st = .validating → tick sensorLow draw b = settleTick b (tickValidate b)) ∧
      (b.st.busy = false → b.sst = .sample →
        tick sensorLow draw b = settleTick b (tickReadLevel (sample sensorLow draw b) b)) ∧
      (b.st.busy = false → b.sst = .measure →
        tick sensorLow draw b = settleTick b (tickMeasure (sample sensorLow draw b) b)) ∧
      (b.st.busy = false → b.sst = .sleep → tick sensorLow draw b = settleTick b (tickSleep b)) ∧
      (b.st.busy = false → b.sst = .idle → tick sensorLow draw b = settleTick b b)) ∧
    ((tick sensorLow draw b).dir ≠ b.dir → (tick sensorLow draw b).settle = 0) ∧
    ((tick sensorLow draw b).dir = b.dir →
      (tick sensorLow draw b).settle.toNat = min (b.settle.toNat + 1) (2 ^ 24 - 1)) ∧
    (b.busy = false → ∃ c, tick sensorLow draw b = { b with settle := c }) ∧
    (b.st.busy = true → (tick sensorLow draw b).sst = b.sst ∧ (tick sensorLow draw b).exp = b.exp ∧
      (tick sensorLow draw b).lim = b.lim ∧ (tick sensorLow draw b).pulse = b.pulse) ∧
    (b.st.busy = false → (tick sensorLow draw b).st = b.st ∧ (tick sensorLow draw b).ph = b.ph ∧
      (tick sensorLow draw b).bitcnt = b.bitcnt ∧ (tick sensorLow draw b).frame = b.frame ∧
      (tick sensorLow draw b).err = b.err ∧ (tick sensorLow draw b).valid = b.valid ∧
      (tick sensorLow draw b).humX10 = b.humX10 ∧ (tick sensorLow draw b).tempX10 = b.tempX10 ∧
      (tick sensorLow draw b).dir = b.dir) ∧
    ((tick sensorLow draw b).rej = b.rej ∧ (tick sensorLow draw b).timing = b.timing) ∧
    (∀ (sensorLow' : Bool) (draw' : Level),
      (b.busy = false ∨ b.st = .hostStart ∨ (b.st = .waitSensorAck ∧ b.ph = false) ∨ b.st = .validating ∨
        (b.st.busy = false ∧ b.sst = .sleep)) →
      tick sensorLow' draw' b = tick sensorLow draw b)

/-! ## Line operations -/

/-- R80: `RELEASE` on a free block, its whole effect. -/
def Obligations.ReleaseSetsDirectionInput : Prop :=
  encode .release = 0x00000001 ∧
  ∀ s : State, s.blk.busy = false →
    exec .release s = .next { s with
      blk := if s.blk.dir = .output then { s.blk with dir := .input, settle := 0 } else s.blk }

/-- The acceptance of `DRIVE_LOW` on a free block, its whole effect (41_line_ops.md R81). -/
def Obligations.DriveLowSetsDirectionOutput : Prop :=
  ∀ s : State, s.blk.busy = false →
    exec .driveLow s = .next { s with
      blk := if s.blk.dir = .input then { s.blk with dir := .output, settle := 0 } else s.blk }

/-- After `DRIVE_LOW` the wire stays Low for any number of ticks, and nothing times it out; every sample is Low
(41_line_ops.md R81, corner cases). -/
def Obligations.DrivenLineStaysLow : Prop :=
  ∀ (s t : State) (inputs : List TickInput), s.blk.busy = false → exec .driveLow s = .next t →
    (ticks inputs t.blk).dir = .output ∧
    (∀ sensorLow, (ticks inputs t.blk).wire sensorLow = .low) ∧
    ∀ sensorLow draw, sample sensorLow draw (ticks inputs t.blk) = .low

/-- R82: `READ_LEVEL` on a free block, and the one tick that completes it. -/
def Obligations.ReadLevelReturnsTheSample : Prop :=
  encode .readLevel = 0x00000003 ∧
  (∀ s : State, s.blk.busy = false →
    exec .readLevel s = .next { s with blk := { s.blk with sst := .sample } } ∧
    ({ s.blk with sst := .sample } : Block).busy = true) ∧
  ∀ (b : Block) (sensorLow : Bool) (draw : Level), b.sst = .sample → b.st.busy = false →
    tick sensorLow draw b = { b with
      pulse := { b.pulse with lvls := sample sensorLow draw b }
      sst := .idle
      settle := saturatingSucc b.settle }

/-! ## Sampler operations -/

/-- The acceptance of `MEASURE_PULSE` on a free block, its whole effect (42_sampler_ops.md R91). -/
def Obligations.MeasurePulseStartsAMeasurement : Prop :=
  ∀ (lvl : Level) (timeoutUs : Count) (s : State), s.blk.busy = false →
    exec (.measurePulse lvl timeoutUs) s =
      .next { s with blk := { s.blk with sst := .measure, exp := lvl, lim := timeoutUs, cnt := 0 } } ∧
    ({ s.blk with sst := .measure, exp := lvl, lim := timeoutUs, cnt := 0 } : Block).busy = true

/-- The tick of a running `MEASURE_PULSE`, its whole effect: the level test, then the limit test, then the count
(42_sampler_ops.md R90, R91). -/
def Obligations.MeasureTickTestsLevelBeforeLimit : Prop :=
  ∀ (b : Block) (sensorLow : Bool) (draw : Level), b.sst = .measure → b.st.busy = false →
    (sample sensorLow draw b ≠ b.exp → tick sensorLow draw b = { b with
      pulse := { dur := b.cnt, timedOut := false, lvls := b.pulse.lvls, zero := decide (b.cnt = 0) }
      sst := .idle, settle := saturatingSucc b.settle }) ∧
    (sample sensorLow draw b = b.exp → b.lim.toNat ≤ b.cnt.toNat → tick sensorLow draw b = { b with
      pulse := { dur := b.cnt, timedOut := true, lvls := b.pulse.lvls, zero := false }
      sst := .idle, settle := saturatingSucc b.settle }) ∧
    (sample sensorLow draw b = b.exp → b.cnt.toNat < b.lim.toNat → tick sensorLow draw b = { b with
      cnt := b.cnt + 1, settle := saturatingSucc b.settle })

/-- A whole `MEASURE_PULSE lvl, limit` on a free block: `k` samples of the level and then the other one give the
duration `k` at tick `k + 1` when `k` is within the limit; more give Timeout at tick `limit + 1`; not one tick
earlier in either case (42_sampler_ops.md R90, R91 "Duration"). -/
def Obligations.MeasurePulseReturnsDurationOrTimeout : Prop :=
  ∀ (s t : State) (lvl other : Level) (limit : Count) (k : Nat), s.blk.busy = false → other ≠ lvl →
    exec (.measurePulse lvl limit) s = .next t →
    (k ≤ limit.toNat → (sampledTicks (List.replicate k lvl) t.blk).sst = .measure ∧
      (sampledTicks (List.replicate k lvl ++ [other]) t.blk).sst = .idle ∧
      (sampledTicks (List.replicate k lvl ++ [other]) t.blk).pulse =
        { dur := BitVec.ofNat 24 k, timedOut := false, lvls := s.blk.pulse.lvls, zero := decide (k = 0) }) ∧
    (sampledTicks (List.replicate (limit.toNat + 1) lvl) t.blk).sst = .idle ∧
    (sampledTicks (List.replicate (limit.toNat + 1) lvl) t.blk).pulse =
      { dur := limit, timedOut := true, lvls := s.blk.pulse.lvls, zero := false }

/-- The acceptance of `SLEEP_US` on a free block, its whole effect (42_sampler_ops.md R92). -/
def Obligations.SleepStartsAWait : Prop :=
  ∀ (durationUs : Count) (s : State), s.blk.busy = false →
    exec (.sleepUs durationUs) s =
      .next { s with blk := { s.blk with sst := .sleep, lim := durationUs, cnt := 0 } } ∧
    ({ s.blk with sst := .sleep, lim := durationUs, cnt := 0 } : Block).busy = true

/-- `SLEEP_US d` on a free block lasts exactly `max(d, 1)` ticks whatever the inputs, leaves `CNT = max(d, 1)` and
holds the wire as it was (42_sampler_ops.md R92). -/
def Obligations.SleepLastsExactlyItsDuration : Prop :=
  ∀ (s t : State) (d : Count) (inputs : List TickInput), s.blk.busy = false → exec (.sleepUs d) s = .next t →
    (inputs.length < max d.toNat 1 → (ticks inputs t.blk).sst = .sleep) ∧
    (inputs.length = max d.toNat 1 → ∃ c,
      ticks inputs t.blk = { s.blk with sst := .idle, lim := d, cnt := BitVec.ofNat 24 (max d.toNat 1), settle := c })

/-! ## `READ` -/

/-- The acceptance of `READ` on a free block, its whole effect (43_protocol_read.md R100). -/
def Obligations.ReadStartsAFreshTransaction : Prop :=
  encode .read = 0x00000006 ∧
  ∀ s : State, s.blk.busy = false →
    exec .read s = .next { s with
      blk := { s.blk with
        err := .none, valid := false, humX10 := 0, tempX10 := 0, frame := 0, bitcnt := 0, ph := false, cnt := 0
        dir := .output, settle := if s.blk.dir = .input then 0 else s.blk.settle
        st := .hostStart } }

/-- R101: the tick of HostStart; and after a `READ` on a free block the state lasts exactly `max(T_START, 1)` ticks
with the wire driven Low in each of them. For `DIR = Input`, which no run shows in HostStart, the first clause follows
R30 (3) (log entry 8). -/
def Obligations.HostStartHoldsTheWireLow : Prop :=
  (∀ (b : Block) (sensorLow : Bool) (draw : Level), b.st = .hostStart →
    tick sensorLow draw b =
      if b.timing.tStart.toNat ≤ b.cnt.toNat + 1 then
        { b with
          dir := .input, st := .waitSensorAck, ph := false, cnt := 0
          settle := if b.dir = .input then saturatingSucc b.settle else 0 }
      else { b with cnt := b.cnt + 1, settle := saturatingSucc b.settle }) ∧
  ∀ (s t : State) (inputs : List TickInput), s.blk.busy = false → exec .read s = .next t →
    (inputs.length < max s.blk.timing.tStart.toNat 1 →
      (ticks inputs t.blk).st = .hostStart ∧ ∀ sensorLow, (ticks inputs t.blk).wire sensorLow = .low) ∧
    (inputs.length = max s.blk.timing.tStart.toNat 1 →
      (ticks inputs t.blk).st = .waitSensorAck ∧ (ticks inputs t.blk).ph = false ∧
      (ticks inputs t.blk).dir = .input ∧ (ticks inputs t.blk).settle = 0 ∧ (ticks inputs t.blk).cnt = 0)

/-- R102: the tick of the delay phase; entered with `CNT = 0` it lasts exactly `max(T_ACK_DELAY, 1)` ticks. -/
def Obligations.AckDelayLastsItsTicks : Prop :=
  (∀ (b : Block) (sensorLow : Bool) (draw : Level), b.st = .waitSensorAck → b.ph = false →
    tick sensorLow draw b =
      if b.timing.tAckDelay.toNat ≤ b.cnt.toNat + 1 then
        { b with ph := true, cnt := 0, settle := saturatingSucc b.settle }
      else { b with cnt := b.cnt + 1, settle := saturatingSucc b.settle }) ∧
  ∀ (b : Block) (inputs : List TickInput), b.st = .waitSensorAck → b.ph = false → b.cnt = 0 →
    (inputs.length < max b.timing.tAckDelay.toNat 1 →
      (ticks inputs b).st = .waitSensorAck ∧ (ticks inputs b).ph = false) ∧
    (inputs.length = max b.timing.tAckDelay.toNat 1 →
      (ticks inputs b).st = .waitSensorAck ∧ (ticks inputs b).ph = true ∧ (ticks inputs b).cnt = 0)

/-- R103: the tick of the polling phase; entered with `CNT = 0`, a wire that stays High raises NoResponse at exactly
the `(T_RESP_WINDOW + 1)`-th sample, and a Low at that sample or before is the sensor's answer. -/
def Obligations.PollEndsInAnswerOrNoResponse : Prop :=
  (∀ (b : Block) (sensorLow : Bool) (draw : Level), b.st = .waitSensorAck → b.ph = true →
    (sample sensorLow draw b = .low → tick sensorLow draw b = { b with
      st := .waitSensorReady, ph := false, cnt := 1, settle := saturatingSucc b.settle }) ∧
    (sample sensorLow draw b = .high → b.timing.tRespWindow.toNat ≤ b.cnt.toNat →
      tick sensorLow draw b = { b.fail .noResponse with settle := saturatingSucc b.settle }) ∧
    (sample sensorLow draw b = .high → b.cnt.toNat < b.timing.tRespWindow.toNat →
      tick sensorLow draw b = { b with cnt := b.cnt + 1, settle := saturatingSucc b.settle })) ∧
  ∀ (b : Block) (k : Nat), b.st = .waitSensorAck → b.ph = true → b.cnt = 0 →
    (k ≤ b.timing.tRespWindow.toNat →
      (sampledTicks (List.replicate k .high) b).st = .waitSensorAck ∧
      (sampledTicks (List.replicate k .high ++ [.low]) b).st = .waitSensorReady ∧
      (sampledTicks (List.replicate k .high ++ [.low]) b).cnt = 1) ∧
    (sampledTicks (List.replicate (b.timing.tRespWindow.toNat + 1) .high) b).st = .failed ∧
    (sampledTicks (List.replicate (b.timing.tRespWindow.toNat + 1) .high) b).err = .noResponse

/-- R105, R106: the ticks of the two halves of the acknowledgement, their whole effect. -/
def Obligations.AcknowledgementTicks : Prop :=
  ∀ (b : Block) (sensorLow : Bool) (draw : Level), b.st = .waitSensorReady →
    (b.ph = false → sample sensorLow draw b = .high →
      tick sensorLow draw b = { b with ph := true, cnt := 1, settle := saturatingSucc b.settle }) ∧
    (b.ph = false → sample sensorLow draw b = .low → b.timing.tAckLowTo.toNat ≤ b.cnt.toNat →
      tick sensorLow draw b = { b.fail .timeout with settle := saturatingSucc b.settle }) ∧
    (b.ph = false → sample sensorLow draw b = .low → b.cnt.toNat < b.timing.tAckLowTo.toNat →
      tick sensorLow draw b = { b with cnt := b.cnt + 1, settle := saturatingSucc b.settle }) ∧
    (b.ph = true → sample sensorLow draw b = .low → tick sensorLow draw b = { b with
      st := .readingBits, ph := false, cnt := 1, settle := saturatingSucc b.settle }) ∧
    (b.ph = true → sample sensorLow draw b = .high → b.timing.tAckHighTo.toNat ≤ b.cnt.toNat →
      tick sensorLow draw b = { b.fail .timeout with settle := saturatingSucc b.settle }) ∧
    (b.ph = true → sample sensorLow draw b = .high → b.cnt.toNat < b.timing.tAckHighTo.toNat →
      tick sensorLow draw b = { b with cnt := b.cnt + 1, settle := saturatingSucc b.settle })

/-- R107, R108: the ticks of a bit-start marker and of a data pulse, their whole effect; the captured bit is 1 exactly
when the duration exceeds the threshold. The duration 0, which R104 makes unreachable, gives MalformedFrame. -/
def Obligations.BitCaptureTicks : Prop :=
  ∀ (b : Block) (sensorLow : Bool) (draw : Level), b.st = .readingBits →
    (b.ph = false → sample sensorLow draw b = .high →
      tick sensorLow draw b = { b with ph := true, cnt := 1, settle := saturatingSucc b.settle }) ∧
    (b.ph = false → sample sensorLow draw b = .low → b.timing.tBitLowTo.toNat ≤ b.cnt.toNat →
      tick sensorLow draw b = { b.fail .timeout with settle := saturatingSucc b.settle }) ∧
    (b.ph = false → sample sensorLow draw b = .low → b.cnt.toNat < b.timing.tBitLowTo.toNat →
      tick sensorLow draw b = { b with cnt := b.cnt + 1, settle := saturatingSucc b.settle }) ∧
    (b.ph = true → sample sensorLow draw b = .low → b.cnt = 0 →
      tick sensorLow draw b = { b.fail .malformedFrame with settle := saturatingSucc b.settle }) ∧
    (b.ph = true → sample sensorLow draw b = .low → b.cnt ≠ 0 → b.bitcnt = 39 → ∃ f : RawFrame,
      f.toNat = 2 * b.frame.toNat % 2 ^ 40 + (if b.timing.tBitThresh.toNat < b.cnt.toNat then 1 else 0) ∧
      tick sensorLow draw b = { b with
        frame := f, bitcnt := 40, st := .validating, ph := false, cnt := 0, settle := saturatingSucc b.settle }) ∧
    (b.ph = true → sample sensorLow draw b = .low → b.cnt ≠ 0 → b.bitcnt ≠ 39 → ∃ f : RawFrame,
      f.toNat = 2 * b.frame.toNat % 2 ^ 40 + (if b.timing.tBitThresh.toNat < b.cnt.toNat then 1 else 0) ∧
      tick sensorLow draw b = { b with
        frame := f, bitcnt := b.bitcnt + 1, ph := false, cnt := 1, settle := saturatingSucc b.settle }) ∧
    (b.ph = true → sample sensorLow draw b = .high → b.timing.tBitHighTo.toNat ≤ b.cnt.toNat →
      tick sensorLow draw b = { b.fail .timeout with settle := saturatingSucc b.settle }) ∧
    (b.ph = true → sample sensorLow draw b = .high → b.cnt.toNat < b.timing.tBitHighTo.toNat →
      tick sensorLow draw b = { b with cnt := b.cnt + 1, settle := saturatingSucc b.settle })

/-- A chained pulse of `n` samples, the first of which set `CNT` to 1, is measured as exactly `n` when
`n <= max(t, 1)`, and times out at its `(max(t, 1) + 1)`-th sample when it is longer (43_protocol_read.md R104 (a)). -/
def Obligations.ChainedPulseIsMeasuredExactly : Prop :=
  ∀ (b : Block) (lvl : Level) (limit : Count) (n : Nat), b.chainedPulse = some (lvl, limit) → b.cnt = 1 → 1 ≤ n →
    (n ≤ max limit.toNat 1 →
      (sampledTicks (List.replicate (n - 1) lvl) b).st = b.st ∧
      (sampledTicks (List.replicate (n - 1) lvl) b).ph = b.ph ∧
      (sampledTicks (List.replicate (n - 1) lvl) b).cnt.toNat = n) ∧
    (max limit.toNat 1 < n →
      (sampledTicks (List.replicate (max limit.toNat 1) lvl) b).st = .failed ∧
      (sampledTicks (List.replicate (max limit.toNat 1) lvl) b).err = .timeout)

/-! ## Bits, frame, checksum, conversion -/

/-- R130: `classify`, the tie being a 0. -/
def Obligations.ClassifyComparesWithTheThreshold : Prop :=
  ∀ thresh d : Count,
    (d = 0 → classify thresh d = .invalid) ∧
    (d ≠ 0 → thresh.toNat < d.toNat → classify thresh d = .bit true) ∧
    (d ≠ 0 → d.toNat ≤ thresh.toNat → classify thresh d = .bit false)

/-- Of 40 bits shifted into an empty frame the `i`-th to arrive is at `FRAME[39 - i]`, so the five bytes arrive in the
order of R66, the most significant bit of each first, which the spec takes from general knowledge (log entry 14). -/
def Obligations.FirstBitEndsAtTheTopOfTheFrame : Prop :=
  ∀ bits : List Bool, bits.length = 40 →
    (∀ i : Nat, i < 40 → (bits.foldl shiftIn 0).getLsbD (39 - i) = bits.getD i false) ∧
    ∀ j : Nat, j < 8 →
      (byte0 (bits.foldl shiftIn 0)).getLsbD (7 - j) = bits.getD j false ∧
      (byte1 (bits.foldl shiftIn 0)).getLsbD (7 - j) = bits.getD (8 + j) false ∧
      (byte2 (bits.foldl shiftIn 0)).getLsbD (7 - j) = bits.getD (16 + j) false ∧
      (byte3 (bits.foldl shiftIn 0)).getLsbD (7 - j) = bits.getD (24 + j) false ∧
      (byte4 (bits.foldl shiftIn 0)).getLsbD (7 - j) = bits.getD (32 + j) false

/-- R131, R132, R133, the bytes, the checksum law and the sanity check in terms of the frame as a number. -/
def Obligations.ChecksumAndSanityOfAFrame : Prop :=
  ∀ f : RawFrame,
    ((byte0 f).toNat = f.toNat / 2 ^ 32 ∧ (byte1 f).toNat = f.toNat / 2 ^ 24 % 256 ∧
      (byte2 f).toNat = f.toNat / 2 ^ 16 % 256 ∧ (byte3 f).toNat = f.toNat / 2 ^ 8 % 256 ∧
      (byte4 f).toNat = f.toNat % 256) ∧
    (checksumValid f = true ↔ byte4 f = byte0 f + byte1 f + byte2 f + byte3 f) ∧
    (frameSane f = true ↔ (byte1 f).toNat ≤ 9 ∧ (byte3 f).toNat ≤ 9 ∧ 10 * (byte0 f).toNat + (byte1 f).toNat ≤ 1000)

/-- R134: the tick of Validating, its whole effect. That a fraction counts tenths the spec takes from general knowledge
(log entry 14). -/
def Obligations.ValidatingEndsInOneTick : Prop :=
  ∀ (b : Block) (sensorLow : Bool) (draw : Level), b.st = .validating →
    (checksumValid b.frame = false →
      tick sensorLow draw b = { b.fail .checksumMismatch with settle := saturatingSucc b.settle }) ∧
    (checksumValid b.frame = true → frameSane b.frame = false →
      tick sensorLow draw b = { b.fail .malformedFrame with settle := saturatingSucc b.settle }) ∧
    (checksumValid b.frame = true → frameSane b.frame = true → ∃ (h : BitVec 11) (c : BitVec 12),
      h.toNat = 10 * (byte0 b.frame).toNat + (byte1 b.frame).toNat ∧
      c.toNat = 10 * (byte2 b.frame).toNat + (byte3 b.frame).toNat ∧ h.toNat ≤ 1000 ∧ c.toNat ≤ 2559 ∧
      tick sensorLow draw b = { b with
        humX10 := h, tempX10 := c, valid := true, st := .done, ph := false, cnt := 0
        settle := saturatingSucc b.settle })

/-! ## Errors -/

/-- R142: the entry to Failed, what it writes and what it leaves; and every tick that enters Failed does exactly that
and the settle count, nothing else. -/
def Obligations.FailureEntryReplacesTheTick : Prop :=
  (∀ (b : Block) (code : ErrCode),
    b.fail code = { b with st := .failed, err := code, frame := 0, bitcnt := 0, ph := false, cnt := 0 }) ∧
  ∀ (b : Block) (sensorLow : Bool) (draw : Level), b.st ≠ .failed → (tick sensorLow draw b).st = .failed →
    ∃ code, code ≠ .none ∧ tick sensorLow draw b = { b.fail code with settle := saturatingSucc b.settle }

/-- R141: every place an error is raised and by what condition, and no other; the acceptance of an operation raises
none. -/
def Obligations.ErrorsAreRaisedExactlyWhereListed : Prop :=
  (∀ (b : Block) (lvl : Level), b.st ≠ .failed →
    ((tickOn lvl b).st = .failed ∧ (tickOn lvl b).err = .noResponse ↔
      b.st = .waitSensorAck ∧ b.ph = true ∧ lvl = .high ∧ b.timing.tRespWindow.toNat ≤ b.cnt.toNat) ∧
    ((tickOn lvl b).st = .failed ∧ (tickOn lvl b).err = .timeout ↔
      (b.st = .waitSensorReady ∧ b.ph = false ∧ lvl = .low ∧ b.timing.tAckLowTo.toNat ≤ b.cnt.toNat) ∨
      (b.st = .waitSensorReady ∧ b.ph = true ∧ lvl = .high ∧ b.timing.tAckHighTo.toNat ≤ b.cnt.toNat) ∨
      (b.st = .readingBits ∧ b.ph = false ∧ lvl = .low ∧ b.timing.tBitLowTo.toNat ≤ b.cnt.toNat) ∨
      (b.st = .readingBits ∧ b.ph = true ∧ lvl = .high ∧ b.timing.tBitHighTo.toNat ≤ b.cnt.toNat)) ∧
    ((tickOn lvl b).st = .failed ∧ (tickOn lvl b).err = .checksumMismatch ↔
      b.st = .validating ∧ checksumValid b.frame = false) ∧
    ((tickOn lvl b).st = .failed ∧ (tickOn lvl b).err = .malformedFrame ↔
      (b.st = .validating ∧ checksumValid b.frame = true ∧ frameSane b.frame = false) ∨
      (b.st = .readingBits ∧ b.ph = true ∧ lvl = .low ∧ b.cnt = 0)) ∧
    ¬((tickOn lvl b).st = .failed ∧ (tickOn lvl b).err = .none)) ∧
  ∀ (i : Instr) (s t : State), exec i s = .next t →
    t.blk.err = s.blk.err ∨ (i = .read ∧ t.blk.err = .none)

/-! ## The whole machine -/

/-- R112: a tick moves `ST`, `PH` and `ERR` along the arrows of the table and in no other way, and nothing else moves
`ST` or `PH` but an accepted `READ` and Reset. -/
def Obligations.ProtocolMovesOnlyAlongTheTable : Prop :=
  (∀ (lvl : Level) (b : Block) (st : Protocol) (ph : Bool) (err : ErrCode), TickArrow lvl b st ph err →
    (tickOn lvl b).st = st ∧ (tickOn lvl b).ph = ph ∧ (tickOn lvl b).err = err) ∧
  (∀ (lvl : Level) (b : Block), (∀ st ph err, ¬TickArrow lvl b st ph err) →
    (tickOn lvl b).st = b.st ∧ (tickOn lvl b).ph = b.ph ∧ (tickOn lvl b).err = b.err) ∧
  ∀ (s t : State), step s = .next t → (t.blk.st ≠ s.blk.st ∨ t.blk.ph ≠ s.blk.ph) →
    (∃ sensorLow draw, t.blk = tick sensorLow draw s.blk ∧
      (s.schedule = [] ∨ s.schedule.head? = some (.tick sensorLow draw))) ∨
    (s.schedule.head? = some .reset ∧ t.blk.st = .idle) ∨
    (∃ v, s.schedule.head? = some (.hostWrite 0 v) ∧ decode v = .ok .read ∧ s.blk.busy = false ∧
      t.blk.st = .hostStart)

/-- The five direct operations and their ticks touch nothing of the transaction and its result, and only a `READ` or
Reset leaves a terminal state (41_line_ops.md R84). They are accepted only while the block is free: on a busy one the
write is dropped and sets `REJ` (20_memory.md R45; DESIGN CHOICE among what U7 allows, log entry 6), and that `exec`
speaks of a busy block at all is the model's reading (DEDUCED, log entry 4). -/
def Obligations.DirectOperationsKeepTheTransaction : Prop :=
  (∀ (i : Instr) (s t : State), i ≠ .read → exec i s = .next t →
    t.blk.st = s.blk.st ∧ t.blk.ph = s.blk.ph ∧ t.blk.bitcnt = s.blk.bitcnt ∧ t.blk.frame = s.blk.frame ∧
    t.blk.err = s.blk.err ∧ t.blk.valid = s.blk.valid ∧ t.blk.humX10 = s.blk.humX10 ∧
    t.blk.tempX10 = s.blk.tempX10 ∧ (s.blk.busy = true → t.blk = { s.blk with rej := true })) ∧
  (∀ (b : Block) (sensorLow : Bool) (draw : Level), b.st.busy = false →
    (tick sensorLow draw b).st = b.st ∧ (tick sensorLow draw b).ph = b.ph ∧
    (tick sensorLow draw b).bitcnt = b.bitcnt ∧ (tick sensorLow draw b).frame = b.frame ∧
    (tick sensorLow draw b).err = b.err ∧ (tick sensorLow draw b).valid = b.valid ∧
    (tick sensorLow draw b).humX10 = b.humX10 ∧ (tick sensorLow draw b).tempX10 = b.tempX10) ∧
  ∀ s t : State, (s.blk.st = .done ∨ s.blk.st = .failed) → step s = .next t → t.blk.st ≠ s.blk.st →
    s.schedule.head? = some .reset ∨ ∃ v, s.schedule.head? = some (.hostWrite 0 v) ∧ decode v = .ok .read

/-- `DIR` changes value only at the acceptance of `RELEASE`, `DRIVE_LOW` or `READ`, at the last tick of HostStart and
at Reset (41_line_ops.md R83 (b)). -/
def Obligations.DirectionChangesOnlyWhereListed : Prop :=
  ∀ s t : State, step s = .next t → t.blk.dir ≠ s.blk.dir →
    s.schedule.head? = some .reset ∨
    (∃ v i, s.schedule.head? = some (.hostWrite 0 v) ∧ decode v = .ok i ∧ s.blk.busy = false ∧
      (i = .release ∨ i = .driveLow ∨ i = .read)) ∨
    ((s.schedule = [] ∨ ∃ sensorLow draw, s.schedule.head? = some (.tick sensorLow draw)) ∧
      s.blk.st = .hostStart ∧ s.blk.timing.tStart.toNat ≤ s.blk.cnt.toNat + 1)

/-- `PULSE` changes only at Reset and at the tick that completes a direct operation: `READ_LEVEL` writes `LVLS` alone
and `MEASURE_PULSE` leaves it (10_state.md R21). -/
def Obligations.PulseChangesOnlyAtCompletion : Prop :=
  ∀ s t : State, step s = .next t → t.blk.pulse ≠ s.blk.pulse →
    s.schedule.head? = some .reset ∨
    (s.blk.st.busy = false ∧ t.blk.sst = .idle ∧
      ((s.blk.sst = .sample ∧ t.blk.pulse.dur = s.blk.pulse.dur ∧ t.blk.pulse.timedOut = s.blk.pulse.timedOut ∧
          t.blk.pulse.zero = s.blk.pulse.zero) ∨
        (s.blk.sst = .measure ∧ t.blk.pulse.lvls = s.blk.pulse.lvls)))

/-- The result registers change only at an accepted `READ`, which clears them, at the entry to Done, at the entry to
Failed, and at Reset (10_state.md R20). -/
def Obligations.ResultsChangeOnlyAtStartAndEnd : Prop :=
  ∀ s t : State, step s = .next t → s.schedule.head? ≠ some .reset →
    (t.blk.valid ≠ s.blk.valid ∨ t.blk.humX10 ≠ s.blk.humX10 ∨ t.blk.tempX10 ≠ s.blk.tempX10 →
      (t.blk.st = .hostStart ∧ t.blk.valid = false ∧ t.blk.humX10 = 0 ∧ t.blk.tempX10 = 0) ∨
      (s.blk.st = .validating ∧ t.blk.st = .done)) ∧
    (t.blk.err ≠ s.blk.err →
      (t.blk.st = .hostStart ∧ t.blk.err = .none) ∨ (s.blk.st.busy = true ∧ t.blk.st = .failed))

/-- The register relations of `Block.Inv` hold in the reset state (R35). -/
def Obligations.RegisterRelationsHoldAtReset : Prop := State.reset.blk.Inv

/-- Every step keeps the register relations of `Block.Inv` (10_state.md R15 to R18, R20; R83; R109, each of which the
spec derives from its step rules). -/
def Obligations.EveryStepKeepsTheRegisterRelations : Prop :=
  ∀ s t : State, s.blk.Inv → step s = .next t → t.blk.Inv

/-- The first sample of a transaction: after a `READ` on a free block, `max(T_START, 1) + max(T_ACK_DELAY, 1)` ticks
lead to the first poll whatever the inputs, with `SETTLE = max(T_ACK_DELAY, 1)`; the sample is the wire's level when
`T_SETTLE_US <= max(T_ACK_DELAY, 1)` and a draw when not (70_reset_and_hazards.md R165). -/
def Obligations.FirstPollComesAfterTheDelay : Prop :=
  ∀ (s t : State) (inputs : List TickInput), s.blk.busy = false → exec .read s = .next t →
    inputs.length = max s.blk.timing.tStart.toNat 1 + max s.blk.timing.tAckDelay.toNat 1 →
    (ticks inputs t.blk).st = .waitSensorAck ∧ (ticks inputs t.blk).ph = true ∧ (ticks inputs t.blk).cnt = 0 ∧
    (ticks inputs t.blk).dir = .input ∧
    (ticks inputs t.blk).settle.toNat = max s.blk.timing.tAckDelay.toNat 1 ∧
    ∀ sensorLow draw, sample sensorLow draw (ticks inputs t.blk) =
      if Config.tSettleUs.toNat ≤ max s.blk.timing.tAckDelay.toNat 1 then (if sensorLow then .low else .high)
      else draw

/-- Every transaction ends: `READ` on a free block is in Done or Failed, and free again, after at most the ticks of
the last row of 70_reset_and_hazards.md R171, whatever the wire and the draws do. -/
def Obligations.EveryTransactionEndsInBoundedTime : Prop :=
  ∀ (s t : State) (inputs : List TickInput), s.blk.busy = false → exec .read s = .next t →
    longestTransaction s.blk.timing ≤ inputs.length →
    ((ticks inputs t.blk).st = .done ∨ (ticks inputs t.blk).st = .failed) ∧ (ticks inputs t.blk).busy = false

/-- No state leaks between transactions: two free blocks that agree on `DIR`, `SETTLE` and the timing registers run,
after a `READ` and equal inputs, equal transactions, tick for tick (43_protocol_read.md R110). -/
def Obligations.TransactionsAreIndependent : Prop :=
  ∀ (s s' t t' : State) (inputs : List TickInput), s.blk.busy = false → s'.blk.busy = false →
    s.blk.dir = s'.blk.dir → s.blk.settle = s'.blk.settle → s.blk.timing = s'.blk.timing →
    exec .read s = .next t → exec .read s' = .next t' →
    (ticks inputs t.blk).transactionView = (ticks inputs t'.blk).transactionView

/-- A sensor that never answers: when every poll reads High, the transaction of a `READ` on a free block fails with
NoResponse at exactly tick `max(T_START, 1) + max(T_ACK_DELAY, 1) + T_RESP_WINDOW + 1` and shows no data
(43_protocol_read.md R103, R114 last sentence). -/
def Obligations.SilentSensorGivesNoResponse : Prop :=
  ∀ (s t : State) (quiet polls : List TickInput), s.blk.busy = false →
    Config.tSettleUs.toNat ≤ max s.blk.timing.tAckDelay.toNat 1 → exec .read s = .next t →
    quiet.length = max s.blk.timing.tStart.toNat 1 + max s.blk.timing.tAckDelay.toNat 1 →
    (∀ i ∈ polls, i.1 = false) →
    (polls.length ≤ s.blk.timing.tRespWindow.toNat → (ticks (quiet ++ polls) t.blk).st = .waitSensorAck) ∧
    (polls.length = s.blk.timing.tRespWindow.toNat + 1 →
      (ticks (quiet ++ polls) t.blk).st = .failed ∧ (ticks (quiet ++ polls) t.blk).err = .noResponse ∧
      (ticks (quiet ++ polls) t.blk).valid = false ∧ (ticks (quiet ++ polls) t.blk).humX10 = 0 ∧
      (ticks (quiet ++ polls) t.blk).tempX10 = 0 ∧ (ticks (quiet ++ polls) t.blk).frame = 0)

/-- A whole reading, step by step from the host's write of the `READ` word to a free block. For every sensor answer
whose pulses are within the limits, whatever the draws are and whatever the wire does before the first poll, the
block is in Validating at tick `S + D + h + a + b + sum(m_i + p_i) + 1` with bit `i` of the answer at `FRAME[39 - i]`,
and one tick later it is in Done with the reading of the frame, or in Failed with ChecksumMismatch when the checksum
differs, or with MalformedFrame when the checksum holds and the frame is not sane (43_protocol_read.md R100 to R114;
44_validate_decode.md R134, R135, R137). The order of the bits inside a byte and the scale of the fractions the spec
takes from general knowledge (log entry 14). -/
def Obligations.SensorAnswerIsDeliveredAsAReading : Prop :=
  ∀ (s : State) (w : Waveform) (quiet answer : List TickInput) (final : TickInput) (rest : List RunStep),
    s.blk.busy = false → Config.tSettleUs.toNat ≤ max s.blk.timing.tAckDelay.toNat 1 → w.Fits s.blk.timing →
    quiet.length = max s.blk.timing.tStart.toNat 1 + max s.blk.timing.tAckDelay.toNat 1 →
    answer.map (fun i => i.1) = w.levels.map (fun l => decide (l = .low)) →
    s.schedule = .hostWrite 0 0x00000006 :: tickSteps (quiet ++ answer) ++ tickSteps [final] ++ rest →
    answer.length = w.wait + w.ackLow + w.ackHigh + (w.bits.map fun p => p.1 + p.2).sum + 1 ∧
    ∃ u t : State,
      Sys2Proof.core.run (1 + (quiet.length + answer.length)) s = .next u ∧
      u.blk.st = .validating ∧ u.blk.bitcnt = 40 ∧ u.blk.dir = .input ∧
      (∀ i : Nat, i < 40 → u.blk.frame.getLsbD (39 - i) =
        decide (s.blk.timing.tBitThresh.toNat < (w.bits.getD i (0, 0)).2)) ∧
      step u = .next t ∧ t.schedule = rest ∧ t.blk.busy = false ∧
      (checksumValid u.blk.frame = true → frameSane u.blk.frame = true →
        t.blk.st = .done ∧ t.blk.valid = true ∧ t.blk.err = .none ∧ t.blk.frame = u.blk.frame ∧
        t.blk.humX10.toNat = 10 * (byte0 u.blk.frame).toNat + (byte1 u.blk.frame).toNat ∧
        t.blk.tempX10.toNat = 10 * (byte2 u.blk.frame).toNat + (byte3 u.blk.frame).toNat) ∧
      (checksumValid u.blk.frame = false →
        t.blk.st = .failed ∧ t.blk.err = .checksumMismatch ∧ t.blk.valid = false ∧ t.blk.frame = 0) ∧
      (checksumValid u.blk.frame = true → frameSane u.blk.frame = false →
        t.blk.st = .failed ∧ t.blk.err = .malformedFrame ∧ t.blk.valid = false ∧ t.blk.frame = 0)
end

