-- ==== Sys2Proof/Laws/Codec.lean ====
section
/-! SUPPORT. The fields of a command word that is put together, and of a level's code. -/

namespace Sys2Proof

@[simp] theorem fieldOp_commandWord (op : BitVec 4) (l : Level) (a : Count) : fieldOp (commandWord op l a) = op := by
  apply BitVec.eq_of_getLsbD_eq
  intro i hi
  simp only [fieldOp, commandWord, BitVec.getLsbD_extractLsb', BitVec.getLsbD_append]
  simp [hi]

@[simp] theorem fieldLvl_commandWord (op : BitVec 4) (l : Level) (a : Count) :
    fieldLvl (commandWord op l a) = l.bit := by
  apply BitVec.eq_of_getLsbD_eq
  intro i hi
  obtain rfl : i = 0 := by omega
  simp only [fieldLvl, commandWord, BitVec.getLsbD_extractLsb', BitVec.getLsbD_append]
  simp

@[simp] theorem fieldRsv_commandWord (op : BitVec 4) (l : Level) (a : Count) : fieldRsv (commandWord op l a) = 0 := by
  apply BitVec.eq_of_getLsbD_eq
  intro i hi
  obtain rfl | rfl | rfl : i = 0 ∨ i = 1 ∨ i = 2 := by omega
  all_goals
    simp only [fieldRsv, commandWord, BitVec.getLsbD_extractLsb', BitVec.getLsbD_append]
    simp

@[simp] theorem fieldArg_commandWord (op : BitVec 4) (l : Level) (a : Count) :
    fieldArg (commandWord op l a) = a := by
  apply BitVec.eq_of_getLsbD_eq
  intro i hi
  have h1 : ¬ 8 + i < 4 := by omega
  have h2 : ¬ 8 + i - 4 < 1 := by omega
  have h3 : ¬ 8 + i - 4 - 1 < 3 := by omega
  have h4 : 8 + i - 4 - 1 - 3 = i := by omega
  simp only [fieldArg, commandWord, BitVec.getLsbD_extractLsb', BitVec.getLsbD_append, h1, h2, h3, h4]
  simp [hi]

/-- A command word is its four fields. -/
theorem commandWord_eq_of_fields {w : Word} {op : BitVec 4} {l : Level} {a : Count} (hop : fieldOp w = op)
    (hl : fieldLvl w = l.bit) (hr : fieldRsv w = 0) (ha : fieldArg w = a) : w = commandWord op l a := by
  subst hop ha
  unfold commandWord
  rw [← hl]
  change fieldRsv w = 0#3 at hr
  rw [← hr]
  simp only [fieldOp, fieldLvl, fieldRsv, fieldArg]
  apply BitVec.eq_of_getLsbD_eq
  intro i hi
  simp only [BitVec.getLsbD_append, BitVec.getLsbD_extractLsb']
  split
  · simp [*]
  · split
    · have : 4 + (i - 4) = i := by omega
      simp [*]
    · split
      · have : 5 + (i - 4 - 1) = i := by omega
        simp [*]
      · have : 8 + (i - 4 - 1 - 3) = i := by omega
        have h24 : i - 4 - 1 - 3 < 24 := by omega
        simp [*]

@[simp] theorem Level.ofBit_bit (l : Level) : Level.ofBit l.bit = l := by cases l <;> rfl

@[simp] theorem Level.bit_ofBit (c : BitVec 1) : (Level.ofBit c).bit = c := by
  rcases BitVec.eq_zero_or_eq_one c with h | h <;> subst h <;> rfl

/-- The bits of a word are the word itself. -/
@[simp] theorem tableWord_toNat (w : Word) : tableWord 32 w.toNat = w := by
  simp [tableWord, Nat.mod_eq_of_lt w.isLt]

/-! The fields of a word as numbers. -/

theorem fieldOp_toNat (w : Word) : (fieldOp w).toNat = w.toNat % 16 := by
  simp [fieldOp, BitVec.extractLsb'_toNat]

theorem fieldLvl_toNat (w : Word) : (fieldLvl w).toNat = w.toNat / 16 % 2 := by
  simp [fieldLvl, BitVec.extractLsb'_toNat, Nat.shiftRight_eq_div_pow]

theorem fieldRsv_toNat (w : Word) : (fieldRsv w).toNat = w.toNat / 32 % 8 := by
  simp [fieldRsv, BitVec.extractLsb'_toNat, Nat.shiftRight_eq_div_pow]

theorem fieldArg_toNat (w : Word) : (fieldArg w).toNat = w.toNat / 256 := by
  have := w.isLt
  simp only [fieldArg, BitVec.extractLsb'_toNat, Nat.shiftRight_eq_div_pow]
  omega

/-- Two words with equal fields are equal. -/
theorem word_eq_of_fields {w v : Word} (ho : fieldOp w = fieldOp v) (hl : fieldLvl w = fieldLvl v)
    (hr : fieldRsv w = fieldRsv v) (ha : fieldArg w = fieldArg v) : w = v := by
  apply BitVec.eq_of_toNat_eq
  have h1 := congrArg BitVec.toNat ho
  have h2 := congrArg BitVec.toNat hl
  have h3 := congrArg BitVec.toNat hr
  have h4 := congrArg BitVec.toNat ha
  simp only [fieldOp_toNat, fieldLvl_toNat, fieldRsv_toNat, fieldArg_toNat] at h1 h2 h3 h4
  omega

/-- A word is the sum of its fields. -/
theorem word_toNat (w : Word) :
    w.toNat = (fieldOp w).toNat + 16 * (fieldLvl w).toNat + 32 * (fieldRsv w).toNat + 256 * (fieldArg w).toNat := by
  rw [fieldOp_toNat, fieldLvl_toNat, fieldRsv_toNat, fieldArg_toNat]
  omega

/-- A command word as a number. -/
theorem commandWord_toNat (op : BitVec 4) (l : Level) (a : Count) :
    (commandWord op l a).toNat = op.toNat + 16 * l.bit.toNat + 256 * a.toNat := by
  rw [word_toNat, fieldOp_commandWord, fieldLvl_commandWord, fieldRsv_commandWord, fieldArg_commandWord]
  simp

/-- Which words are well formed, by their fields. -/
theorem wordLegal_iff (w : Word) :
    wordLegal w = true ↔ (1 ≤ (fieldOp w).toNat ∧ (fieldOp w).toNat ≤ 6) ∧ fieldRsv w = 0 := by
  rw [← BitVec.toNat_inj, fieldOp_toNat, fieldRsv_toNat]
  simp [wordLegal, opLegal, rsvLegal]

end Sys2Proof
end

