-- ==== Sys2Proof/Laws/State.lean ====
section
/-! SUPPORT. One lemma for each field of each named update of the state and the block, so that no proof unfolds an
update. -/

namespace Sys2Proof.Machine

/-! `State.onBlock` and `State.withFetchWord`. -/

@[simp] theorem State.onBlock_blk (f : Block → Block) (s : State) : (s.onBlock f).blk = f s.blk := rfl
@[simp] theorem State.onBlock_schedule (f : Block → Block) (s : State) : (s.onBlock f).schedule = s.schedule := rfl
@[simp] theorem State.onBlock_readData (f : Block → Block) (s : State) : (s.onBlock f).readData = s.readData := rfl
@[simp] theorem State.onBlock_freeTicks (f : Block → Block) (s : State) : (s.onBlock f).freeTicks = s.freeTicks := rfl
@[simp] theorem State.withFetchWord_blk (s : State) (n w : Nat) : (s.withFetchWord n w).blk = s.blk := rfl
@[simp] theorem State.withFetchWord_schedule (s : State) (n w : Nat) : (s.withFetchWord n w).schedule = .hostWrite 0 (tableWord n w) :: s.schedule := rfl
@[simp] theorem State.withFetchWord_readData (s : State) (n w : Nat) : (s.withFetchWord n w).readData = s.readData := rfl
@[simp] theorem State.withFetchWord_freeTicks (s : State) (n w : Nat) : (s.withFetchWord n w).freeTicks = s.freeTicks := rfl

/-! `Block.reject`. -/

@[simp] theorem Block.reject_dir (b : Block) : b.reject.dir = b.dir := rfl
@[simp] theorem Block.reject_settle (b : Block) : b.reject.settle = b.settle := rfl
@[simp] theorem Block.reject_st (b : Block) : b.reject.st = b.st := rfl
@[simp] theorem Block.reject_ph (b : Block) : b.reject.ph = b.ph := rfl
@[simp] theorem Block.reject_bitcnt (b : Block) : b.reject.bitcnt = b.bitcnt := rfl
@[simp] theorem Block.reject_sst (b : Block) : b.reject.sst = b.sst := rfl
@[simp] theorem Block.reject_exp (b : Block) : b.reject.exp = b.exp := rfl
@[simp] theorem Block.reject_lim (b : Block) : b.reject.lim = b.lim := rfl
@[simp] theorem Block.reject_cnt (b : Block) : b.reject.cnt = b.cnt := rfl
@[simp] theorem Block.reject_frame (b : Block) : b.reject.frame = b.frame := rfl
@[simp] theorem Block.reject_err (b : Block) : b.reject.err = b.err := rfl
@[simp] theorem Block.reject_valid (b : Block) : b.reject.valid = b.valid := rfl
@[simp] theorem Block.reject_humX10 (b : Block) : b.reject.humX10 = b.humX10 := rfl
@[simp] theorem Block.reject_tempX10 (b : Block) : b.reject.tempX10 = b.tempX10 := rfl
@[simp] theorem Block.reject_rej (b : Block) : b.reject.rej = true := rfl
@[simp] theorem Block.reject_pulse (b : Block) : b.reject.pulse = b.pulse := rfl
@[simp] theorem Block.reject_timing (b : Block) : b.reject.timing = b.timing := rfl

/-! `Block.fail`. -/

@[simp] theorem Block.fail_dir (code : ErrCode) (b : Block) : (b.fail code).dir = b.dir := rfl
@[simp] theorem Block.fail_settle (code : ErrCode) (b : Block) : (b.fail code).settle = b.settle := rfl
@[simp] theorem Block.fail_st (code : ErrCode) (b : Block) : (b.fail code).st = .failed := rfl
@[simp] theorem Block.fail_ph (code : ErrCode) (b : Block) : (b.fail code).ph = false := rfl
@[simp] theorem Block.fail_bitcnt (code : ErrCode) (b : Block) : (b.fail code).bitcnt = 0 := rfl
@[simp] theorem Block.fail_sst (code : ErrCode) (b : Block) : (b.fail code).sst = b.sst := rfl
@[simp] theorem Block.fail_exp (code : ErrCode) (b : Block) : (b.fail code).exp = b.exp := rfl
@[simp] theorem Block.fail_lim (code : ErrCode) (b : Block) : (b.fail code).lim = b.lim := rfl
@[simp] theorem Block.fail_cnt (code : ErrCode) (b : Block) : (b.fail code).cnt = 0 := rfl
@[simp] theorem Block.fail_frame (code : ErrCode) (b : Block) : (b.fail code).frame = 0 := rfl
@[simp] theorem Block.fail_err (code : ErrCode) (b : Block) : (b.fail code).err = code := rfl
@[simp] theorem Block.fail_valid (code : ErrCode) (b : Block) : (b.fail code).valid = b.valid := rfl
@[simp] theorem Block.fail_humX10 (code : ErrCode) (b : Block) : (b.fail code).humX10 = b.humX10 := rfl
@[simp] theorem Block.fail_tempX10 (code : ErrCode) (b : Block) : (b.fail code).tempX10 = b.tempX10 := rfl
@[simp] theorem Block.fail_rej (code : ErrCode) (b : Block) : (b.fail code).rej = b.rej := rfl
@[simp] theorem Block.fail_pulse (code : ErrCode) (b : Block) : (b.fail code).pulse = b.pulse := rfl
@[simp] theorem Block.fail_timing (code : ErrCode) (b : Block) : (b.fail code).timing = b.timing := rfl

/-! `Block.clearTransaction`. -/

@[simp] theorem Block.clearTransaction_dir (b : Block) : b.clearTransaction.dir = b.dir := rfl
@[simp] theorem Block.clearTransaction_settle (b : Block) : b.clearTransaction.settle = b.settle := rfl
@[simp] theorem Block.clearTransaction_st (b : Block) : b.clearTransaction.st = b.st := rfl
@[simp] theorem Block.clearTransaction_ph (b : Block) : b.clearTransaction.ph = false := rfl
@[simp] theorem Block.clearTransaction_bitcnt (b : Block) : b.clearTransaction.bitcnt = 0 := rfl
@[simp] theorem Block.clearTransaction_sst (b : Block) : b.clearTransaction.sst = b.sst := rfl
@[simp] theorem Block.clearTransaction_exp (b : Block) : b.clearTransaction.exp = b.exp := rfl
@[simp] theorem Block.clearTransaction_lim (b : Block) : b.clearTransaction.lim = b.lim := rfl
@[simp] theorem Block.clearTransaction_cnt (b : Block) : b.clearTransaction.cnt = 0 := rfl
@[simp] theorem Block.clearTransaction_frame (b : Block) : b.clearTransaction.frame = 0 := rfl
@[simp] theorem Block.clearTransaction_err (b : Block) : b.clearTransaction.err = .none := rfl
@[simp] theorem Block.clearTransaction_valid (b : Block) : b.clearTransaction.valid = false := rfl
@[simp] theorem Block.clearTransaction_humX10 (b : Block) : b.clearTransaction.humX10 = 0 := rfl
@[simp] theorem Block.clearTransaction_tempX10 (b : Block) : b.clearTransaction.tempX10 = 0 := rfl
@[simp] theorem Block.clearTransaction_rej (b : Block) : b.clearTransaction.rej = b.rej := rfl
@[simp] theorem Block.clearTransaction_pulse (b : Block) : b.clearTransaction.pulse = b.pulse := rfl
@[simp] theorem Block.clearTransaction_timing (b : Block) : b.clearTransaction.timing = b.timing := rfl

/-! `Block.writeTiming`. -/

@[simp] theorem Block.writeTiming_dir (n : RegNum) (v : Word) (b : Block) : (b.writeTiming n v).dir = b.dir := rfl
@[simp] theorem Block.writeTiming_settle (n : RegNum) (v : Word) (b : Block) : (b.writeTiming n v).settle = b.settle := rfl
@[simp] theorem Block.writeTiming_st (n : RegNum) (v : Word) (b : Block) : (b.writeTiming n v).st = b.st := rfl
@[simp] theorem Block.writeTiming_ph (n : RegNum) (v : Word) (b : Block) : (b.writeTiming n v).ph = b.ph := rfl
@[simp] theorem Block.writeTiming_bitcnt (n : RegNum) (v : Word) (b : Block) : (b.writeTiming n v).bitcnt = b.bitcnt := rfl
@[simp] theorem Block.writeTiming_sst (n : RegNum) (v : Word) (b : Block) : (b.writeTiming n v).sst = b.sst := rfl
@[simp] theorem Block.writeTiming_exp (n : RegNum) (v : Word) (b : Block) : (b.writeTiming n v).exp = b.exp := rfl
@[simp] theorem Block.writeTiming_lim (n : RegNum) (v : Word) (b : Block) : (b.writeTiming n v).lim = b.lim := rfl
@[simp] theorem Block.writeTiming_cnt (n : RegNum) (v : Word) (b : Block) : (b.writeTiming n v).cnt = b.cnt := rfl
@[simp] theorem Block.writeTiming_frame (n : RegNum) (v : Word) (b : Block) : (b.writeTiming n v).frame = b.frame := rfl
@[simp] theorem Block.writeTiming_err (n : RegNum) (v : Word) (b : Block) : (b.writeTiming n v).err = b.err := rfl
@[simp] theorem Block.writeTiming_valid (n : RegNum) (v : Word) (b : Block) : (b.writeTiming n v).valid = b.valid := rfl
@[simp] theorem Block.writeTiming_humX10 (n : RegNum) (v : Word) (b : Block) : (b.writeTiming n v).humX10 = b.humX10 := rfl
@[simp] theorem Block.writeTiming_tempX10 (n : RegNum) (v : Word) (b : Block) : (b.writeTiming n v).tempX10 = b.tempX10 := rfl
@[simp] theorem Block.writeTiming_rej (n : RegNum) (v : Word) (b : Block) : (b.writeTiming n v).rej = b.rej := rfl
@[simp] theorem Block.writeTiming_pulse (n : RegNum) (v : Word) (b : Block) : (b.writeTiming n v).pulse = b.pulse := rfl
@[simp] theorem Block.writeTiming_timing (n : RegNum) (v : Word) (b : Block) : (b.writeTiming n v).timing = b.timing.write n (v.extractLsb' 0 24) := rfl

/-! `Block.switchDir`. -/

@[simp] theorem Block.switchDir_dir (d : Direction) (b : Block) : (b.switchDir d).dir = d := by
  unfold Block.switchDir; split <;> simp_all
@[simp] theorem Block.switchDir_settle (d : Direction) (b : Block) : (b.switchDir d).settle = if b.dir = d then b.settle else 0 := by
  unfold Block.switchDir; split <;> simp_all
@[simp] theorem Block.switchDir_st (d : Direction) (b : Block) : (b.switchDir d).st = b.st := by
  unfold Block.switchDir; split <;> simp_all
@[simp] theorem Block.switchDir_ph (d : Direction) (b : Block) : (b.switchDir d).ph = b.ph := by
  unfold Block.switchDir; split <;> simp_all
@[simp] theorem Block.switchDir_bitcnt (d : Direction) (b : Block) : (b.switchDir d).bitcnt = b.bitcnt := by
  unfold Block.switchDir; split <;> simp_all
@[simp] theorem Block.switchDir_sst (d : Direction) (b : Block) : (b.switchDir d).sst = b.sst := by
  unfold Block.switchDir; split <;> simp_all
@[simp] theorem Block.switchDir_exp (d : Direction) (b : Block) : (b.switchDir d).exp = b.exp := by
  unfold Block.switchDir; split <;> simp_all
@[simp] theorem Block.switchDir_lim (d : Direction) (b : Block) : (b.switchDir d).lim = b.lim := by
  unfold Block.switchDir; split <;> simp_all
@[simp] theorem Block.switchDir_cnt (d : Direction) (b : Block) : (b.switchDir d).cnt = b.cnt := by
  unfold Block.switchDir; split <;> simp_all
@[simp] theorem Block.switchDir_frame (d : Direction) (b : Block) : (b.switchDir d).frame = b.frame := by
  unfold Block.switchDir; split <;> simp_all
@[simp] theorem Block.switchDir_err (d : Direction) (b : Block) : (b.switchDir d).err = b.err := by
  unfold Block.switchDir; split <;> simp_all
@[simp] theorem Block.switchDir_valid (d : Direction) (b : Block) : (b.switchDir d).valid = b.valid := by
  unfold Block.switchDir; split <;> simp_all
@[simp] theorem Block.switchDir_humX10 (d : Direction) (b : Block) : (b.switchDir d).humX10 = b.humX10 := by
  unfold Block.switchDir; split <;> simp_all
@[simp] theorem Block.switchDir_tempX10 (d : Direction) (b : Block) : (b.switchDir d).tempX10 = b.tempX10 := by
  unfold Block.switchDir; split <;> simp_all
@[simp] theorem Block.switchDir_rej (d : Direction) (b : Block) : (b.switchDir d).rej = b.rej := by
  unfold Block.switchDir; split <;> simp_all
@[simp] theorem Block.switchDir_pulse (d : Direction) (b : Block) : (b.switchDir d).pulse = b.pulse := by
  unfold Block.switchDir; split <;> simp_all
@[simp] theorem Block.switchDir_timing (d : Direction) (b : Block) : (b.switchDir d).timing = b.timing := by
  unfold Block.switchDir; split <;> simp_all

/-! `Block.startRead`. -/

@[simp] theorem Block.startRead_dir (b : Block) : b.startRead.dir = .output := by
  simp [Block.startRead]
@[simp] theorem Block.startRead_st (b : Block) : b.startRead.st = .hostStart := by
  simp [Block.startRead]
@[simp] theorem Block.startRead_ph (b : Block) : b.startRead.ph = false := by
  simp [Block.startRead]
@[simp] theorem Block.startRead_bitcnt (b : Block) : b.startRead.bitcnt = 0 := by
  simp [Block.startRead]
@[simp] theorem Block.startRead_sst (b : Block) : b.startRead.sst = b.sst := by
  simp [Block.startRead]
@[simp] theorem Block.startRead_exp (b : Block) : b.startRead.exp = b.exp := by
  simp [Block.startRead]
@[simp] theorem Block.startRead_lim (b : Block) : b.startRead.lim = b.lim := by
  simp [Block.startRead]
@[simp] theorem Block.startRead_cnt (b : Block) : b.startRead.cnt = 0 := by
  simp [Block.startRead]
@[simp] theorem Block.startRead_frame (b : Block) : b.startRead.frame = 0 := by
  simp [Block.startRead]
@[simp] theorem Block.startRead_err (b : Block) : b.startRead.err = .none := by
  simp [Block.startRead]
@[simp] theorem Block.startRead_valid (b : Block) : b.startRead.valid = false := by
  simp [Block.startRead]
@[simp] theorem Block.startRead_humX10 (b : Block) : b.startRead.humX10 = 0 := by
  simp [Block.startRead]
@[simp] theorem Block.startRead_tempX10 (b : Block) : b.startRead.tempX10 = 0 := by
  simp [Block.startRead]
@[simp] theorem Block.startRead_rej (b : Block) : b.startRead.rej = b.rej := by
  simp [Block.startRead]
@[simp] theorem Block.startRead_pulse (b : Block) : b.startRead.pulse = b.pulse := by
  simp [Block.startRead]
@[simp] theorem Block.startRead_timing (b : Block) : b.startRead.timing = b.timing := by
  simp [Block.startRead]
@[simp] theorem Block.startRead_settle (b : Block) :
    b.startRead.settle = if b.dir = .output then b.settle else 0 :=
  Block.switchDir_settle .output b.clearTransaction

/-! `settleTick`. -/

@[simp] theorem settleTick_dir (a b : Block) : (settleTick a b).dir = b.dir := by
  unfold settleTick; split <;> simp_all
@[simp] theorem settleTick_settle (a b : Block) : (settleTick a b).settle = if b.dir = a.dir then saturatingSucc a.settle else 0 := by
  unfold settleTick; split <;> simp_all
@[simp] theorem settleTick_st (a b : Block) : (settleTick a b).st = b.st := by
  unfold settleTick; split <;> simp_all
@[simp] theorem settleTick_ph (a b : Block) : (settleTick a b).ph = b.ph := by
  unfold settleTick; split <;> simp_all
@[simp] theorem settleTick_bitcnt (a b : Block) : (settleTick a b).bitcnt = b.bitcnt := by
  unfold settleTick; split <;> simp_all
@[simp] theorem settleTick_sst (a b : Block) : (settleTick a b).sst = b.sst := by
  unfold settleTick; split <;> simp_all
@[simp] theorem settleTick_exp (a b : Block) : (settleTick a b).exp = b.exp := by
  unfold settleTick; split <;> simp_all
@[simp] theorem settleTick_lim (a b : Block) : (settleTick a b).lim = b.lim := by
  unfold settleTick; split <;> simp_all
@[simp] theorem settleTick_cnt (a b : Block) : (settleTick a b).cnt = b.cnt := by
  unfold settleTick; split <;> simp_all
@[simp] theorem settleTick_frame (a b : Block) : (settleTick a b).frame = b.frame := by
  unfold settleTick; split <;> simp_all
@[simp] theorem settleTick_err (a b : Block) : (settleTick a b).err = b.err := by
  unfold settleTick; split <;> simp_all
@[simp] theorem settleTick_valid (a b : Block) : (settleTick a b).valid = b.valid := by
  unfold settleTick; split <;> simp_all
@[simp] theorem settleTick_humX10 (a b : Block) : (settleTick a b).humX10 = b.humX10 := by
  unfold settleTick; split <;> simp_all
@[simp] theorem settleTick_tempX10 (a b : Block) : (settleTick a b).tempX10 = b.tempX10 := by
  unfold settleTick; split <;> simp_all
@[simp] theorem settleTick_rej (a b : Block) : (settleTick a b).rej = b.rej := by
  unfold settleTick; split <;> simp_all
@[simp] theorem settleTick_pulse (a b : Block) : (settleTick a b).pulse = b.pulse := by
  unfold settleTick; split <;> simp_all
@[simp] theorem settleTick_timing (a b : Block) : (settleTick a b).timing = b.timing := by
  unfold settleTick; split <;> simp_all

end Sys2Proof.Machine
end

