-- ==== Sys2Proof/Laws/Ops.lean ====
section
/-! SUPPORT. One lemma for each shared operation that says everything it can do. -/

namespace Sys2Proof.Machine

/-! Comparisons, counters and codes. -/

@[simp] theorem reaches_iff (c l : Count) : reaches c l = true ↔ l.toNat ≤ c.toNat + 1 := by simp [reaches]

@[simp] theorem atLimit_iff (c l : Count) : atLimit c l = true ↔ l.toNat ≤ c.toNat := by simp [atLimit]

theorem saturatingSucc_toNat (c : Count) : (saturatingSucc c).toNat = min (c.toNat + 1) (2 ^ 24 - 1) := by
  unfold saturatingSucc
  split
  · next h => subst h; rfl
  · next h =>
    have h1 : c.toNat ≠ 2 ^ 24 - 1 := fun e => h (by apply BitVec.eq_of_toNat_eq; simpa using e)
    have h2 := c.isLt
    rw [BitVec.toNat_add, show (1 : Count).toNat = 1 from rfl]
    omega

/-- An increment below a 24-bit number does not wrap. -/
theorem count_succ_toNat {c : Count} {n : Nat} (hc : c.toNat < n) (hn : n < 2 ^ 24) :
    (c + 1).toNat = c.toNat + 1 := by
  rw [BitVec.toNat_add, show (1 : Count).toNat = 1 from rfl]
  omega

theorem duration_pos (n : Count) : 0 < duration n := by simp [duration]

theorem duration_lt (n : Count) : duration n < 2 ^ 24 := by
  have := n.isLt
  simp only [duration]
  omega

theorem le_duration (n : Count) : n.toNat ≤ duration n := by simp [duration]

theorem Config.tSettleUs_pos : 1 ≤ Config.tSettleUs.toNat := by
  unfold Config.tSettleUs
  split
  · simp
  · next h =>
    have : Config.settleFree.toNat ≠ 0 := fun e => h (BitVec.eq_of_toNat_eq (by simpa using e))
    omega

@[simp] theorem Block.busy_eq_false (b : Block) : b.busy = false ↔ b.st.busy = false ∧ b.sst = .idle := by
  simp [Block.busy]

theorem Block.busy_of_st {b : Block} (h : b.st.busy = true) : b.busy = true := by simp [Block.busy, h]

theorem Block.busy_of_sst {b : Block} (h : b.sst ≠ .idle) : b.busy = true := by simp [Block.busy, h]

/-- A state that is not busy is one of three. -/
theorem Protocol.busy_eq_false_iff (p : Protocol) : p.busy = false ↔ p = .idle ∨ p = .done ∨ p = .failed := by
  cases p <;> simp [Protocol.busy]

/-! The frame. -/

/-- The sanity check in numbers. -/
theorem frameSane_iff (f : RawFrame) : frameSane f = true ↔
    (byte1 f).toNat ≤ 9 ∧ (byte3 f).toNat ≤ 9 ∧ tenths (byte0 f) (byte1 f) ≤ 1000 := by
  simp only [frameSane, Bool.and_eq_true, decide_eq_true_eq, and_assoc]
  rfl

/-- The reading of a sane frame fits its registers. -/
theorem tenths_le_of_frameSane {f : RawFrame} (h : frameSane f = true) :
    tenths (byte0 f) (byte1 f) ≤ 1000 ∧ tenths (byte2 f) (byte3 f) ≤ 2559 := by
  rw [frameSane_iff] at h
  have := (byte2 f).isLt
  refine ⟨h.2.2, ?_⟩
  unfold tenths
  omega

/-- The shift of a captured bit in numbers. -/
theorem shiftIn_toNat (f : RawFrame) (c : Bool) : (shiftIn f c).toNat = 2 * f.toNat % 2 ^ 40 + c.toNat := by
  unfold shiftIn
  rw [BitVec.toNat_append, Nat.shiftLeft_eq, Nat.mul_comm, ← Nat.two_pow_add_eq_or_of_lt (BitVec.isLt _)]
  simp
  omega

/-! Samples. -/

theorem sample_output {b : Block} (h : b.dir = .output) (sl : Bool) (draw : Level) : sample sl draw b = .low := by
  simp [sample, sampleAt, h]

theorem sample_unsettled {b : Block} (h : b.dir = .input) (hs : b.settle.toNat < Config.tSettleUs.toNat) (sl : Bool)
    (draw : Level) : sample sl draw b = draw := by
  simp [sample, sampleAt, h, hs]

theorem sample_settled {b : Block} (h : b.dir = .input) (hs : Config.tSettleUs.toNat ≤ b.settle.toNat) (sl : Bool)
    (draw : Level) : sample sl draw b = if sl then .low else .high := by
  simp [sample, sampleAt, h, Nat.not_lt.mpr hs, Block.wire, Block.pinOe]

/-! The timing registers by number. -/

theorem Timing.read_write_same (n : RegNum) (hn : 8 ≤ n.toNat) (v : Count) (t : Timing) :
    (t.write n v).read n = v := by
  have := n.isLt
  obtain h | h | h | h | h | h | h | h : n.toNat = 8 ∨ n.toNat = 9 ∨ n.toNat = 10 ∨ n.toNat = 11 ∨ n.toNat = 12 ∨
      n.toNat = 13 ∨ n.toNat = 14 ∨ n.toNat = 15 := by omega
  all_goals simp [Timing.read, Timing.write, h]

theorem Timing.read_write_other (n m : RegNum) (h : m ≠ n) (v : Count) (t : Timing) :
    (t.write n v).read m = t.read m := by
  have hne : m.toNat ≠ n.toNat := fun e => h (BitVec.eq_of_toNat_eq e)
  unfold Timing.write
  split <;> first | rfl | (unfold Timing.read; split <;> first | rfl | (exfalso; omega))

/-! Acceptance. -/

/-- What acceptance can do. -/
theorem whenFree_cases {f : Block → Block} {s t : State} (h : whenFree f s = .next t) :
    (s.blk.busy = true ∧ t = s.onBlock Block.reject) ∨ (s.blk.busy = false ∧ t = s.onBlock f) := by
  unfold whenFree at h
  split at h
  · next hb => cases h; exact .inl ⟨hb, rfl⟩
  · next hb => cases h; exact .inr ⟨by simpa using hb, rfl⟩

@[simp] theorem whenFree_free {f : Block → Block} {s : State} (h : s.blk.busy = false) :
    whenFree f s = .next (s.onBlock f) := by simp [whenFree, h]

@[simp] theorem whenFree_busy {f : Block → Block} {s : State} (h : s.blk.busy = true) :
    whenFree f s = .next (s.onBlock Block.reject) := by simp [whenFree, h]

/-- The change an operation makes to a free block when it is accepted. -/
def acceptance : Instr → Block → Block
  | .release => Block.switchDir .input
  | .driveLow => Block.switchDir .output
  | .readLevel => fun b => { b with sst := .sample }
  | .measurePulse lvl timeoutUs => fun b => { b with sst := .measure, exp := lvl, lim := timeoutUs, cnt := 0 }
  | .sleepUs durationUs => fun b => { b with sst := .sleep, lim := durationUs, cnt := 0 }
  | .read => Block.startRead

/-- Every meaning is the acceptance of its operation. -/
theorem exec_eq_whenFree (i : Instr) (s : State) : exec i s = whenFree (acceptance i) s := by cases i <;> rfl

/-! Run steps. -/

/-- What a write to `CMD` does. -/
theorem issue_cases {v : Word} {s t : State} (h : issue v s = .next t) :
    (∃ i, decode v = .ok i ∧ exec i s = .next t) ∨ (∃ e, decode v = .error e ∧ t = s.onBlock Block.reject) := by
  unfold issue at h
  split at h
  · next i hi => exact .inl ⟨i, hi, h⟩
  · next e he => cases h; exact .inr ⟨e, he, rfl⟩

/-- What a host write does to the block. -/
theorem hostWrite_cases {n : RegNum} {v : Word} {s t : State} (h : hostWrite n v s = .next t) :
    t = s.onBlock Block.reject ∨ t = s ∨
      (s.blk.busy = false ∧ n = 0 ∧ ∃ i, decode v = .ok i ∧ t = s.onBlock (acceptance i)) ∨
      (s.blk.busy = false ∧ 8 ≤ n.toNat ∧ t = s.onBlock (Block.writeTiming n v)) := by
  unfold hostWrite at h
  split at h
  · next hn =>
    split at h
    · cases h; exact .inl rfl
    · next hb =>
      have hb : s.blk.busy = false := by simpa using hb
      obtain ⟨i, hi, hx⟩ | ⟨e, -, rfl⟩ := issue_cases h
      · rw [exec_eq_whenFree, whenFree_free hb] at hx
        cases hx
        exact .inr (.inr (.inl ⟨hb, hn, i, hi, rfl⟩))
      · exact .inl rfl
  · split at h
    · next hn =>
      split at h
      · cases h; exact .inl rfl
      · next hb => cases h; exact .inr (.inr (.inr ⟨by simpa using hb, hn, rfl⟩))
    · cases h; exact .inr (.inl rfl)

/-- What a step does to the block, and which run step does it. -/
theorem step_cases {s t : State} (h : step s = .next t) :
    (∃ sl draw, t.blk = tick sl draw s.blk ∧ (s.schedule.head? = none ∨ s.schedule.head? = some (.tick sl draw))) ∨
    (s.schedule.head? = some .reset ∧ t.blk = Block.reset) ∨
    (∃ n, s.schedule.head? = some (.hostRead n) ∧ t.blk = s.blk) ∨
    (∃ n v, s.schedule.head? = some (.hostWrite n v) ∧ (t.blk = s.blk ∨ t.blk = s.blk.reject)) ∨
    (∃ v i, s.schedule.head? = some (.hostWrite 0 v) ∧ decode v = .ok i ∧ s.blk.busy = false ∧
      t.blk = acceptance i s.blk) ∨
    (∃ n v, s.schedule.head? = some (.hostWrite n v) ∧ 8 ≤ n.toNat ∧ s.blk.busy = false ∧
      t.blk = s.blk.writeTiming n v) := by
  unfold step nextRunStep at h
  split at h
  · next hs => cases h; exact .inl ⟨_, _, rfl, .inl (by simp [hs])⟩
  · next e rest hs =>
    cases e with
    | reset => cases h; exact .inr (.inl ⟨by simp [hs], rfl⟩)
    | hostRead n => cases h; exact .inr (.inr (.inl ⟨n, by simp [hs], rfl⟩))
    | tick sl draw => cases h; exact .inl ⟨sl, draw, rfl, .inr (by simp [hs])⟩
    | hostWrite n v =>
      obtain rfl | rfl | ⟨hb, rfl, i, hi, rfl⟩ | ⟨hb, hn, rfl⟩ := hostWrite_cases h
      · exact .inr (.inr (.inr (.inl ⟨n, v, by simp [hs], .inr rfl⟩)))
      · exact .inr (.inr (.inr (.inl ⟨n, v, by simp [hs], .inl rfl⟩)))
      · exact .inr (.inr (.inr (.inr (.inl ⟨v, i, by simp [hs], hi, hb, rfl⟩))))
      · exact .inr (.inr (.inr (.inr (.inr ⟨n, v, by simp [hs], hn, hb, rfl⟩))))

end Sys2Proof.Machine
end

