-- ==== Sys2Proof/Laws/PerInstr.lean ====
section
/-! SUPPORT. What each operation's command word holds in the fields that name it, one lemma for each constructor. -/

namespace Sys2Proof.Laws.TableRow

/-- The encoder's word of `i` carries the operation's code in `OP` and 0 in `RSV` (30_encoding.md R60, R62), so it
passes both checks of R64. -/
def Statement (i : Instr) : Prop :=
  fieldOp (encode i) = i.opCode ∧ fieldRsv (encode i) = 0 ∧ wordLegal (encode i) = true

theorem of_commandWord {i : Instr} {op : BitVec 4} {lvl : Level} {arg : Count} (hw : encode i = commandWord op lvl arg)
    (hc : i.opCode = op) (h1 : 1 ≤ op.toNat) (h6 : op.toNat ≤ 6) : Statement i := by
  unfold Statement
  rw [wordLegal_iff, hw]
  simp [hc, h1, h6]

theorem release : Statement .release := of_commandWord rfl rfl (by decide) (by decide)

theorem driveLow : Statement .driveLow := of_commandWord rfl rfl (by decide) (by decide)

theorem readLevel : Statement .readLevel := of_commandWord rfl rfl (by decide) (by decide)

theorem measurePulse (lvl : Level) (timeoutUs : Count) : Statement (.measurePulse lvl timeoutUs) :=
  of_commandWord rfl rfl (by decide) (by decide)

theorem sleepUs (durationUs : Count) : Statement (.sleepUs durationUs) :=
  of_commandWord rfl rfl (by decide) (by decide)

theorem read : Statement .read := of_commandWord rfl rfl (by decide) (by decide)

end Sys2Proof.Laws.TableRow
end

