-- ==== Sys2Proof/Laws/Ticks.lean ====
section
/-! SUPPORT. What one tick can do, and runs of ticks. -/

namespace Sys2Proof.Machine

/-! The action of a tick, by state and phase. -/

theorem tickAction_hostStart {b : Block} (h : b.st = .hostStart) (lvl : Level) :
    tickAction lvl b = tickHostStart b := by simp [tickAction, h]

theorem tickAction_ackDelay {b : Block} (h : b.st = .waitSensorAck) (hp : b.ph = false) (lvl : Level) :
    tickAction lvl b = tickAckDelay b := by simp [tickAction, h, hp]

theorem tickAction_ackPoll {b : Block} (h : b.st = .waitSensorAck) (hp : b.ph = true) (lvl : Level) :
    tickAction lvl b = tickAckPoll lvl b := by simp [tickAction, h, hp]

theorem tickAction_readyLow {b : Block} (h : b.st = .waitSensorReady) (hp : b.ph = false) (lvl : Level) :
    tickAction lvl b = tickReadyLow lvl b := by simp [tickAction, h, hp]

theorem tickAction_readyHigh {b : Block} (h : b.st = .waitSensorReady) (hp : b.ph = true) (lvl : Level) :
    tickAction lvl b = tickReadyHigh lvl b := by simp [tickAction, h, hp]

theorem tickAction_bitLow {b : Block} (h : b.st = .readingBits) (hp : b.ph = false) (lvl : Level) :
    tickAction lvl b = tickBitLow lvl b := by simp [tickAction, h, hp]

theorem tickAction_bitHigh {b : Block} (h : b.st = .readingBits) (hp : b.ph = true) (lvl : Level) :
    tickAction lvl b = tickBitHigh lvl b := by simp [tickAction, h, hp]

theorem tickAction_validating {b : Block} (h : b.st = .validating) (lvl : Level) :
    tickAction lvl b = tickValidate b := by simp [tickAction, h]

theorem tickAction_free {b : Block} (h : b.st.busy = false) (lvl : Level) :
    tickAction lvl b = tickSampler lvl b := by
  obtain h | h | h := (Protocol.busy_eq_false_iff _).mp h <;> simp [tickAction, h]

/-- The settle counter after an action that keeps `DIR`. -/
theorem settleTick_keep {a b : Block} (h : b.dir = a.dir) :
    settleTick a b = { b with settle := saturatingSucc a.settle } := by simp [settleTick, h]

/-- The settle counter after an action that switches `DIR`. -/
theorem settleTick_switch {a b : Block} (h : b.dir ≠ a.dir) : settleTick a b = { b with settle := 0 } := by
  simp [settleTick, h]

/-! What no tick writes. -/

@[simp] theorem tickAction_timing (lvl : Level) (b : Block) : (tickAction lvl b).timing = b.timing := by
  simp only [tickAction, tickSampler, tickHostStart, tickAckDelay, tickAckPoll, tickReadyLow, tickReadyHigh,
    tickBitLow, tickBitHigh, tickValidate, tickSleep, tickMeasure, tickReadLevel, Block.capture]
  repeat' split
  all_goals rfl

@[simp] theorem tickAction_rej (lvl : Level) (b : Block) : (tickAction lvl b).rej = b.rej := by
  simp only [tickAction, tickSampler, tickHostStart, tickAckDelay, tickAckPoll, tickReadyLow, tickReadyHigh,
    tickBitLow, tickBitHigh, tickValidate, tickSleep, tickMeasure, tickReadLevel, Block.capture]
  repeat' split
  all_goals rfl

/-- `DIR` changes in a tick only at the end of HostStart. -/
theorem tickAction_dir {b : Block} {lvl : Level} (h : b.st ≠ .hostStart) : (tickAction lvl b).dir = b.dir := by
  simp only [tickAction, tickSampler, tickAckDelay, tickAckPoll, tickReadyLow, tickReadyHigh,
    tickBitLow, tickBitHigh, tickValidate, tickSleep, tickMeasure, tickReadLevel, Block.capture]
  repeat' split
  all_goals first | rfl | contradiction

/-- Outside HostStart a tick is its action and one count of `SETTLE`. -/
theorem tickOn_keep {b : Block} {lvl : Level} (h : b.st ≠ .hostStart) :
    tickOn lvl b = { tickAction lvl b with settle := saturatingSucc b.settle } :=
  settleTick_keep (tickAction_dir h)

@[simp] theorem tick_timing (sl : Bool) (draw : Level) (b : Block) : (tick sl draw b).timing = b.timing := by
  simp [tick, tickOn]

@[simp] theorem tick_rej (sl : Bool) (draw : Level) (b : Block) : (tick sl draw b).rej = b.rej := by
  simp [tick, tickOn]

/-! Runs of ticks. -/

@[simp] theorem ticks_nil (b : Block) : ticks [] b = b := rfl

@[simp] theorem ticks_cons (i : TickInput) (inputs : List TickInput) (b : Block) :
    ticks (i :: inputs) b = ticks inputs (tick i.1 i.2 b) := rfl

theorem ticks_append (xs ys : List TickInput) (b : Block) : ticks (xs ++ ys) b = ticks ys (ticks xs b) := by
  simp [ticks, List.foldl_append]

@[simp] theorem sampledTicks_nil (b : Block) : sampledTicks [] b = b := rfl

@[simp] theorem sampledTicks_cons (l : Level) (ls : List Level) (b : Block) :
    sampledTicks (l :: ls) b = sampledTicks ls (tickOn l b) := rfl

theorem sampledTicks_append (xs ys : List Level) (b : Block) :
    sampledTicks (xs ++ ys) b = sampledTicks ys (sampledTicks xs b) := by
  simp [sampledTicks, List.foldl_append]

theorem sampledTicks_replicate_succ (n : Nat) (l : Level) (b : Block) :
    sampledTicks (List.replicate (n + 1) l) b = tickOn l (sampledTicks (List.replicate n l) b) := by
  rw [List.replicate_succ', sampledTicks_append]; rfl

@[simp] theorem ticks_timing (inputs : List TickInput) (b : Block) : (ticks inputs b).timing = b.timing := by
  induction inputs generalizing b with
  | nil => rfl
  | cons i is ih => simp [ih]

@[simp] theorem tickSteps_append (xs ys : List TickInput) : tickSteps (xs ++ ys) = tickSteps xs ++ tickSteps ys := by
  simp [tickSteps]

/-- The run of a schedule that begins with ticks. -/
theorem run_tickSteps (inputs : List TickInput) (s : State) (rest : List RunStep)
    (h : s.schedule = tickSteps inputs ++ rest) :
    Sys2Proof.core.run inputs.length s = .next { s with schedule := rest, blk := ticks inputs s.blk } := by
  induction inputs generalizing s with
  | nil => simp only [tickSteps, List.map_nil, List.nil_append] at h; subst h; rfl
  | cons i is ih =>
    have hs : step s = .next { s with schedule := tickSteps is ++ rest, blk := tick i.1 i.2 s.blk } := by
      simp only [step, nextRunStep, h, tickSteps, List.map_cons, List.cons_append, perform]
      rfl
    have := ih { s with schedule := tickSteps is ++ rest, blk := tick i.1 i.2 s.blk } rfl
    simp only [List.length_cons, Host.Core.run]
    rw [show Sys2Proof.core.step s = _ from hs]
    exact this

end Sys2Proof.Machine
end

