-- ==== Sys2Proof/Tests/Slice0.lean ====
section
/-! SUPPORT. Tests of single steps, their expected results from 30_encoding.md and 95_test_vectors.md, and for every
statement with hypotheses a concrete input that meets them. -/

namespace Sys2Proof.Tests

open Sys2Proof.Machine

/-! ## The command word -/

/-- Ill-formed words for check 1 of R64: `OP` 0, 7 and 15 (V-E14 to V-E16). -/
theorem test_op_check_refuses : opLegal 0x00000000 = false ∧ opLegal 0x00000007 = false ∧ opLegal 0x0000000F = false :=
  by decide

/-- Ill-formed words for check 2 of R64: `RSV` 1 and 4 (V-E17, V-E18). -/
theorem test_rsv_check_refuses : rsvLegal 0x00000026 = false ∧ rsvLegal 0x00000081 = false := by decide

/-- A word that breaks either check is not well formed, and a legal word is (V-E12 to V-E18). -/
theorem test_word_check : wordLegal 0x00000026 = false ∧ wordLegal 0x00000007 = false ∧ wordLegal 0xFFFFFF16 = true :=
  by decide

/-- `ARG` 0, `RSV` 000, `LVL` 0, `OP` 0001 (R60, R62). -/
theorem test_decode_release : decode 0b00000000000000000000000000000001 = .ok .release := by decide

/-- `ARG` 0, `RSV` 000, `LVL` 0, `OP` 0010. -/
theorem test_decode_driveLow : decode 0b00000000000000000000000000000010 = .ok .driveLow := by decide

/-- `ARG` 0, `RSV` 000, `LVL` 0, `OP` 0011. -/
theorem test_decode_readLevel : decode 0b00000000000000000000000000000011 = .ok .readLevel := by decide

/-- `ARG` 90 = 01011010, `RSV` 000, `LVL` 1, `OP` 0100 (V-E7). -/
theorem test_decode_measurePulse : decode 0b00000000000000000101101000010100 = .ok (.measurePulse .high 90) := by decide

/-- `ARG` 18000 = 0100011001010000, `RSV` 000, `LVL` 0, `OP` 0101 (V-E9). -/
theorem test_decode_sleepUs : decode 0b00000000010001100101000000000101 = .ok (.sleepUs 18000) := by decide

/-- `ARG` all ones and `LVL` 1, both ignored, `RSV` 000, `OP` 0110 (V-E13). -/
theorem test_decode_read : decode 0b11111111111111111111111100010110 = .ok .read := by decide

/-- `RSV` is tested beside `OP` (V-E17). -/
theorem test_decode_refuses : decode 0b00000000000000000000000000100110 = .error (.reservedBits 1) := by decide

/-- The assembler's words (30_encoding.md, worked encodings). -/
theorem test_encode : encode (.measurePulse .low 100) = 0x00006404 ∧ encode (.sleepUs 30) = 0x00001E05 ∧
    encode .read = 0x00000006 := by decide

/-- The opcode table's rows, by their words. -/
theorem test_decodeTableWord : decodeTableWord 32 0x00006414 = some (.measurePulse .high 100) ∧
    decodeTableWord 32 0x00000081 = none := by decide

/-! ## Single steps -/

/-- The block after a step, if there is a next state. -/
def blkOf : StepResult → Option Block
  | .next s => some s.blk
  | .fault _ => none
  | .refused _ => none

/-- A state with the given block and schedule. -/
def onto (b : Block) (schedule : List RunStep) : State := { State.reset with blk := b, schedule := schedule }

/-- The reset block with the wire driven. -/
def driven : Block := { Block.reset with dir := .output, settle := 500 }

/-- The reset block after so long that every sample is valid. -/
def settled : Block := { Block.reset with settle := 16777215 }

/-- A block in a transaction whose samples are valid. -/
def inState (st : Protocol) (ph : Bool) (cnt : Count) : Block := { settled with st := st, ph := ph, cnt := cnt }

/-- A block that has captured 39 bits and measures the last data pulse. -/
def lastPulse (cnt : Count) : Block := { inState .readingBits true cnt with bitcnt := 39, frame := 0x20800B002B }

/-- A block in Validating with the given frame. -/
def validating (f : RawFrame) : Block := { inState .validating false 0 with bitcnt := 40, frame := f }

/-- A block with a measurement of High running. -/
def measuring (cnt lim : Count) : Block := { settled with sst := .measure, exp := .high, cnt := cnt, lim := lim }

/-- V-L5: `DIR = Output, SETTLE = 500`; `RELEASE` gives Input and 0. -/
theorem test_release : (blkOf (exec .release (onto driven []))).map (fun b => (b.dir, b.settle, b.pinOe)) =
    some (.input, 0, false) := by decide

/-- V-L2: `RELEASE` of a released wire changes nothing. -/
theorem test_release_released : blkOf (exec .release (onto settled [])) = some settled := by decide

/-- V-L3: `DRIVE_LOW` gives `STATUS = 0x00000040`, `SETTLE = 0`. -/
theorem test_driveLow : (blkOf (exec .driveLow (onto settled []))).map (fun b => (b.statusWord, b.settle)) =
    some (0x00000040, 0) := by decide

/-- V-L4: `DRIVE_LOW` of a driven wire changes nothing. -/
theorem test_driveLow_driven : blkOf (exec .driveLow (onto driven [])) = some driven := by decide

/-- V-L6: `STATUS = 0x00060020` at the acceptance of `READ_LEVEL`. -/
theorem test_readLevel : (blkOf (exec .readLevel (onto settled []))).map Block.statusWord = some 0x00060020 := by decide

/-- V-L6: a High sample ends it with `PULSE = 0x02000000`, `STATUS = 0`. -/
theorem test_readLevel_tick : (tickOn .high { settled with sst := .sample }).pulse.word = 0x02000000 ∧
    (tickOn .high { settled with sst := .sample }).statusWord = 0 := by decide

/-- V-L11: with `T_SETTLE_US = 5` a sample is the draw at `SETTLE = 4` and the wire at `SETTLE = 5`. -/
theorem test_settling : sampleAt 5 false .low { Block.reset with settle := 4 } = .low ∧
    sampleAt 5 false .low { Block.reset with settle := 5 } = .high := by decide

/-- V-M1: the Low sample after 5 High ones gives `PULSE = 0x00000005`; V-M2: at once, `0x04000000`. -/
theorem test_measurePulse_duration : (tickOn .low (measuring 5 100)).pulse.word = 0x00000005 ∧
    (tickOn .low (measuring 0 100)).pulse.word = 0x04000000 := by decide

/-- V-M6, V-M7: at `CNT = 100` the level test comes before the limit test. -/
theorem test_measurePulse_bound : (tickOn .low (measuring 100 100)).pulse.word = 0x00000064 ∧
    (tickOn .high (measuring 100 100)).pulse.word = 0x01000064 ∧ (tickOn .high (measuring 99 100)).sst = .measure := by
  decide

/-- V-M12: `SLEEP_US 0` lasts one tick and leaves `CNT = 1`. -/
theorem test_sleep_zero : (tickOn .low { settled with sst := .sleep, lim := 0 }).sst = .idle ∧
    (tickOn .low { settled with sst := .sleep, lim := 0 }).cnt = 1 := by decide

/-- V-M14: the first tick of `SLEEP_US 2` does not end it. -/
theorem test_sleep_two : (tickOn .low { settled with sst := .sleep, lim := 2 }).sst = .sleep := by decide

/-- V-E13, V-G1: the acceptance of `READ`, from Failed, gives `STATUS = 0x00000061`. -/
theorem test_read : (blkOf (exec .read (onto (settled.fail .noResponse) []))).map Block.statusWord = some 0x00000061 := by
  decide

/-- V-S1: tick 21702, Done with 65.0 percent and 22.0 degrees. -/
theorem test_read_validating : (tickOn .high (validating 0x4100160057)).statusWord = 0x00014086 ∧
    (tickOn .high (validating 0x4100160057)).humX10 = 650 ∧ (tickOn .high (validating 0x4100160057)).tempX10 = 220 := by
  decide

/-- V-S1: tick 21701, a last bit of 1 completes `0x4100160057`. -/
theorem test_read_last_bit : (tickOn .low (lastPulse 70)).statusWord = 0x00014025 ∧
    (tickOn .low (lastPulse 70)).frame = 0x4100160057 := by decide

/-- V-V5, V-V12, V-V13: MalformedFrame, ChecksumMismatch, and the checksum's priority. -/
theorem test_validating_errors : (tickOn .low (validating 0x640116007B)).statusWord = 0x00000407 ∧
    (tickOn .low (validating 0x4100160056)).statusWord = 0x00000307 ∧
    (tickOn .low (validating 0x410A160000)).statusWord = 0x00000307 := by decide

/-- V-C1: the tie at 49 is a 0, 50 is a 1; V-C3: a zero duration is no bit. -/
theorem test_classify : classify 49 49 = .bit false ∧ classify 49 50 = .bit true ∧ classify 49 0 = .invalid := by decide

/-- V-X1: the registers after Reset. -/
theorem test_reset_registers : (List.range 16).map (fun n => (Block.reset.readReg (BitVec.ofNat 4 n)).toNat) =
    [0, 0, 0, 0, 0, 0, 0, 0, 18000, 30, 100, 100, 100, 70, 90, 49] := by decide

/-- V-X2: bits 31:24 of a written timing register are ignored. -/
theorem test_write_timing : (blkOf (step (onto settled [.hostWrite 8 0xAB123456]))).map (Block.readReg 8) =
    some 0x00123456 := by decide

/-- V-X8: `READ` during a sleep is dropped, `STATUS = 0x000A0020`. -/
theorem test_busy_write : (blkOf (step (onto { settled with sst := .sleep, lim := 100, cnt := 1 }
    [.hostWrite 0 0x00000006]))).map Block.statusWord = some 0x000A0020 := by decide

/-- V-E14: an illegal word sets `REJ` alone. -/
theorem test_illegal_word : (blkOf (step (State.reset.withFetchWord 32 0x00000000))).map Block.statusWord =
    some 0x00080000 := by decide

/-- V-E12: a word laid for the next step of the reset state runs there. -/
theorem test_fetch_runs_after_reset : (blkOf (step (State.reset.withFetchWord 32 0x00000006))).map Block.statusWord =
    some 0x00000061 := by decide

/-! ## Inputs that meet the hypotheses of the statements

One theorem for each statement with hypotheses; a statement with several clauses has an input for each, at the values
where the clauses meet. `sample` depends on `T_SETTLE_US`, which nothing constrains beyond its width, so the blocks
that sample have `SETTLE` at its largest value, at which every sample is valid. -/

theorem tSettleUs_le : Config.tSettleUs.toNat ≤ 16777215 := by
  have := Config.tSettleUs.isLt
  omega

theorem sample_low {b : Block} (hd : b.dir = .input) (hs : b.settle = 16777215) : sample true .high b = .low :=
  sample_settled hd (by rw [hs]; exact tSettleUs_le) true .high

theorem sample_high {b : Block} (hd : b.dir = .input) (hs : b.settle = 16777215) : sample false .low b = .high :=
  sample_settled hd (by rw [hs]; exact tSettleUs_le) false .low

/-- The block of a free host with the given timing registers, reset else. -/
def timed (u : Timing) : Block := { settled with timing := u }

/-- A word of each form; `LVL` of `SLEEP_US` and both fields of `READ` are ignored. -/
theorem witness_DecodeAndEncodeAgree : decode 0x00006414 = .ok (.measurePulse .high 100) ∧
    decode 0xFFFFFF15 = .ok (.sleepUs 16777215) ∧ decode 0xFFFFFF16 = .ok .read := by decide

/-- Clause 3: an illegal word of each kind as the next write. Clause 4: words that differ in ignored fields alone, and
the two operations that use `ARG`. -/
theorem witness_IllegalWordsOnlySetRej :
    ((onto settled [.hostWrite 0 0x00000026]).schedule = .hostWrite 0 0x00000026 :: [] ∧
      (onto settled [.hostWrite 0 0x00000026]).blk.busy = false ∧ decode 0x00000026 = .error (.reservedBits 1) ∧
      decode 0x00000007 = .error (.illegalOp 7) ∧ decode 0x00000000 = .error (.illegalOp 0)) ∧
    (∀ p ∈ [((0x00000006 : Word), (0xFFFFFF16 : Word)), (0x00006405, 0x00006415), (0x00006404, 0x00006404)],
      p.1.toNat % 16 = p.2.toNat % 16 ∧ p.1.toNat / 32 % 8 = p.2.toNat / 32 % 8 ∧
      (p.1.toNat % 16 = 4 → p.1 = p.2) ∧ (p.1.toNat % 16 = 5 → p.1.toNat / 256 = p.2.toNat / 256)) := by
  refine ⟨⟨rfl, rfl, rfl, rfl, rfl⟩, ?_⟩
  simp

theorem witness_StepRunsTheDecodedCommand :
    (onto settled [.hostWrite 0 0x00000006]).schedule = .hostWrite 0 0x00000006 :: [] ∧
    decode 0x00000006 = .ok .read := by decide

/-- Nothing scheduled, and each of the four kinds of step. -/
theorem witness_StepPerformsTheNextRunStep :
    State.reset.schedule = [] ∧ (onto settled [.tick true .low]).schedule = .tick true .low :: [] ∧
    (onto settled [.reset]).schedule = .reset :: [] ∧ (onto settled [.hostRead 1]).schedule = .hostRead 1 :: [] ∧
    (onto settled [.hostWrite 8 1]).schedule = .hostWrite 8 1 :: [] := by decide

/-- Busy by a transaction, and by a sampler operation. -/
theorem witness_BusyBlockDropsEveryCommand : (onto (inState .hostStart false 0) []).blk.busy = true ∧
    (onto { settled with sst := .sleep } []).blk.busy = true := by decide

/-- One read for each of the 16 numbers. -/
theorem witness_HostReadReturnsTheRegister : ∀ n : RegNum,
    (onto settled [.hostRead n]).schedule = .hostRead n :: [] := fun _ => rfl

theorem witness_StatusShowsTheState : (onto settled [.hostRead 1]).schedule = .hostRead 1 :: [] ∧
    (onto settled [.hostWrite 1 0xFFFFFFFF]).schedule = .hostWrite 1 0xFFFFFFFF :: [] := by decide

/-- `CMD` and both ends of the timing registers, busy and free, and both ends of the read-only numbers. -/
theorem witness_HostWriteFollowsTheRule :
    (∀ n : RegNum, (onto settled [.hostWrite n 6]).schedule = .hostWrite n 6 :: [] ∧
      (onto (inState .hostStart false 0) [.hostWrite n 6]).schedule = .hostWrite n 6 :: []) ∧
    (inState .hostStart false 0).busy = true ∧ settled.busy = false ∧ 8 ≤ (8 : RegNum).toNat ∧ 8 ≤ (15 : RegNum).toNat ∧
    1 ≤ (1 : RegNum).toNat ∧ (7 : RegNum).toNat ≤ 7 := by
  refine ⟨fun _ => ⟨rfl, rfl⟩, ?_⟩
  decide

theorem witness_BusyWritesAreDroppedAndRejIsSticky :
    ((onto (inState .hostStart false 0) [.hostWrite 0 1]).blk.busy = true) ∧
    (∃ t, step (onto (inState .hostStart false 0) [.hostWrite 15 1]) = .next t) ∧
    (onto (inState .hostStart false 0) [.hostWrite 15 1]).schedule.head? ≠ some .reset ∧
    ∃ t, step (onto settled.reject [.hostWrite 15 1]) = .next t ∧ settled.reject.rej = true :=
  ⟨by decide, ⟨_, rfl⟩, by decide, _, rfl, rfl⟩

/-- Reset in the middle of a transaction. -/
theorem witness_ResetSetsEveryRegister :
    (onto (lastPulse 70) [.reset]).schedule = .reset :: [] ∧
    (onto (lastPulse 70) [.reset]).schedule.head? = some .reset ∧ ∃ t, step (onto (lastPulse 70) [.reset]) = .next t :=
  ⟨rfl, rfl, _, rfl⟩

theorem witness_WireIsLowWhenAnyonePullsLow : (driven.dir = .output ∨ false = true) ∧
    (settled.dir = .output ∨ true = true) ∧ ¬(settled.dir = .output ∨ false = true) := by decide

/-- The two sides of the settling time: `SETTLE = 0` is below it, the largest `SETTLE` is not. -/
theorem witness_SampleFollowsTheRule : driven.dir = .output ∧
    (Block.reset.dir = .input ∧ Block.reset.settle.toNat < Config.tSettleUs.toNat) ∧
    settled.dir = .input ∧ Config.tSettleUs.toNat ≤ settled.settle.toNat :=
  ⟨rfl, ⟨rfl, Config.tSettleUs_pos⟩, rfl, tSettleUs_le⟩

/-- Each state and phase of a transaction and each sampler state outside one; the last tick of HostStart, which
switches the wire, and the one before it, which does not; and the five kinds of tick that do not sample. -/
theorem witness_TickFollowsTheOrder :
    let last : Block := { inState .hostStart false 17999 with dir := .output }
    let before : Block := { inState .hostStart false 17998 with dir := .output }
    (∀ ph : Bool, (inState .waitSensorAck ph 1).st = .waitSensorAck ∧ (inState .waitSensorAck ph 1).ph = ph ∧
      (inState .waitSensorReady ph 1).st = .waitSensorReady ∧ (inState .waitSensorReady ph 1).ph = ph ∧
      (inState .readingBits ph 1).st = .readingBits ∧ (inState .readingBits ph 1).ph = ph) ∧
    (∀ sst : Sampler, ({ settled with sst := sst } : Block).st.busy = false ∧
      ({ settled with sst := sst } : Block).sst = sst) ∧
    (validating 0).st = .validating ∧ last.st = .hostStart ∧ last.st.busy = true ∧
    (tick true .low last).dir ≠ last.dir ∧ (tick true .low before).dir = before.dir ∧ settled.busy = false := by
  refine ⟨fun _ => ⟨rfl, rfl, rfl, rfl, rfl, rfl⟩, fun _ => ⟨rfl, rfl⟩, ?_⟩
  decide

/-- Both directions before the operation. -/
theorem witness_ReleaseSetsDirectionInput : (onto driven []).blk.busy = false ∧ (onto settled []).blk.busy = false := by
  decide

theorem witness_DriveLowSetsDirectionOutput : (onto driven []).blk.busy = false ∧
    (onto settled []).blk.busy = false := by decide

theorem witness_DrivenLineStaysLow : (onto settled []).blk.busy = false ∧
    ∃ t, exec .driveLow (onto settled []) = .next t := ⟨by decide, _, rfl⟩

theorem witness_ReadLevelReturnsTheSample : (onto settled []).blk.busy = false ∧
    ({ settled with sst := .sample } : Block).sst = .sample ∧
    ({ settled with sst := .sample } : Block).st.busy = false := by decide

theorem witness_MeasurePulseStartsAMeasurement : (onto settled []).blk.busy = false := by decide

/-- The other level at `CNT = 0`; the level at `CNT = LIM`, and one below it. -/
theorem witness_MeasureTickTestsLevelBeforeLimit :
    ((measuring 0 0).sst = .measure ∧ (measuring 0 0).st.busy = false ∧
      sample true .high (measuring 0 0) ≠ (measuring 0 0).exp) ∧
    ((measuring 100 100).sst = .measure ∧ (measuring 100 100).st.busy = false ∧
      sample false .low (measuring 100 100) = (measuring 100 100).exp ∧
      (measuring 100 100).lim.toNat ≤ (measuring 100 100).cnt.toNat) ∧
    ((measuring 99 100).sst = .measure ∧ (measuring 99 100).st.busy = false ∧
      sample false .low (measuring 99 100) = (measuring 99 100).exp ∧
      (measuring 99 100).cnt.toNat < (measuring 99 100).lim.toNat) :=
  ⟨⟨rfl, rfl, by rw [sample_low rfl rfl]; decide⟩, ⟨rfl, rfl, sample_high rfl rfl, by decide⟩,
    rfl, rfl, sample_high rfl rfl, by decide⟩

/-- `k` at the limit, and the limit 0. -/
theorem witness_MeasurePulseReturnsDurationOrTimeout : (onto settled []).blk.busy = false ∧ Level.low ≠ .high ∧
    (∃ t, exec (.measurePulse .high 100) (onto settled []) = .next t) ∧ 100 ≤ (100 : Count).toNat ∧
    (∃ t, exec (.measurePulse .high 0) (onto settled []) = .next t) ∧ 0 ≤ (0 : Count).toNat :=
  ⟨by decide, by decide, ⟨_, rfl⟩, by decide, ⟨_, rfl⟩, by decide⟩

theorem witness_SleepStartsAWait : (onto settled []).blk.busy = false := by decide

/-- The durations 0 and 1, which last one tick, and 2 with one tick passed. -/
theorem witness_SleepLastsExactlyItsDuration : (onto settled []).blk.busy = false ∧
    (∀ d : Count, ∃ t, exec (.sleepUs d) (onto settled []) = .next t) ∧
    [((true, .low) : TickInput)].length = max (0 : Count).toNat 1 ∧
    [((true, .low) : TickInput)].length = max (1 : Count).toNat 1 ∧
    [((true, .low) : TickInput)].length < max (2 : Count).toNat 1 :=
  ⟨by decide, fun _ => ⟨_, rfl⟩, by decide, by decide, by decide⟩

/-- Both directions before the `READ`, and a `READ` from Done and from Failed. -/
theorem witness_ReadStartsAFreshTransaction : (onto driven []).blk.busy = false ∧ (onto settled []).blk.busy = false ∧
    (onto (settled.fail .timeout) []).blk.busy = false ∧
    (onto { settled with st := .done, valid := true } []).blk.busy = false := by decide

/-- `T_START` 0 with no tick passed and with one. -/
theorem witness_HostStartHoldsTheWireLow : (inState .hostStart false 0).st = .hostStart ∧
    (onto (timed { Timing.reset with tStart := 0 }) []).blk.busy = false ∧
    (∃ t, exec .read (onto (timed { Timing.reset with tStart := 0 }) []) = .next t) ∧
    ([] : List TickInput).length < max (0 : Count).toNat 1 ∧
    [((true, .low) : TickInput)].length = max (0 : Count).toNat 1 :=
  ⟨rfl, by decide, ⟨_, rfl⟩, by decide, by decide⟩

/-- Entered with `CNT = 0`; 29 ticks and 30 ticks. -/
theorem witness_AckDelayLastsItsTicks : (inState .waitSensorAck false 0).st = .waitSensorAck ∧
    (inState .waitSensorAck false 0).ph = false ∧ (inState .waitSensorAck false 0).cnt = 0 ∧
    (List.replicate 29 ((true, .low) : TickInput)).length < max (inState .waitSensorAck false 0).timing.tAckDelay.toNat 1 ∧
    (List.replicate 30 ((true, .low) : TickInput)).length =
      max (inState .waitSensorAck false 0).timing.tAckDelay.toNat 1 := by decide

/-- Low at the end of the window; High there; High one sample before. -/
theorem witness_PollEndsInAnswerOrNoResponse :
    let full := inState .waitSensorAck true 100
    let almost := inState .waitSensorAck true 99
    (full.st = .waitSensorAck ∧ full.ph = true ∧ sample true .high full = .low) ∧
    (sample false .low full = .high ∧ full.timing.tRespWindow.toNat ≤ full.cnt.toNat) ∧
    (almost.st = .waitSensorAck ∧ almost.ph = true ∧ sample false .low almost = .high ∧
      almost.cnt.toNat < almost.timing.tRespWindow.toNat) ∧
    (inState .waitSensorAck true 0).st = .waitSensorAck ∧ (inState .waitSensorAck true 0).ph = true ∧
    (inState .waitSensorAck true 0).cnt = 0 ∧ 100 ≤ (inState .waitSensorAck true 0).timing.tRespWindow.toNat :=
  ⟨⟨rfl, rfl, sample_low rfl rfl⟩, ⟨sample_high rfl rfl, by decide⟩, ⟨rfl, rfl, sample_high rfl rfl, by decide⟩,
    rfl, rfl, rfl, by decide⟩

/-- In each half: the other level at the limit, the level at the limit, the level one below it. -/
theorem witness_AcknowledgementTicks : ∀ ph : Bool,
    let full := inState .waitSensorReady ph 100
    let almost := inState .waitSensorReady ph 99
    full.st = .waitSensorReady ∧ full.ph = ph ∧ sample false .low full = .high ∧ sample true .high full = .low ∧
    full.timing.tAckLowTo.toNat ≤ full.cnt.toNat ∧ full.timing.tAckHighTo.toNat ≤ full.cnt.toNat ∧
    almost.st = .waitSensorReady ∧ almost.ph = ph ∧ sample false .low almost = .high ∧
    sample true .high almost = .low ∧ almost.cnt.toNat < almost.timing.tAckLowTo.toNat ∧
    almost.cnt.toNat < almost.timing.tAckHighTo.toNat :=
  fun ph => by
    cases ph <;> exact ⟨rfl, rfl, sample_high rfl rfl, sample_low rfl rfl, by decide, by decide,
      rfl, rfl, sample_high rfl rfl, sample_low rfl rfl, by decide, by decide⟩

/-- The marker at, below and beyond its limit 70; the data pulse of duration 0, of the 39th and of the 40th bit, at
its limit 90 and one below it. -/
theorem witness_BitCaptureTicks :
    (let b := inState .readingBits false 70;
      b.st = .readingBits ∧ b.ph = false ∧ sample false .low b = .high ∧ sample true .high b = .low ∧
      b.timing.tBitLowTo.toNat ≤ b.cnt.toNat) ∧
    (let b := inState .readingBits false 69;
      b.st = .readingBits ∧ b.ph = false ∧ sample true .high b = .low ∧ b.cnt.toNat < b.timing.tBitLowTo.toNat) ∧
    (let b := inState .readingBits true 0;
      b.st = .readingBits ∧ b.ph = true ∧ sample true .high b = .low ∧ b.cnt = 0) ∧
    (let b := lastPulse 90;
      b.st = .readingBits ∧ b.ph = true ∧ sample true .high b = .low ∧ b.cnt ≠ 0 ∧ b.bitcnt = 39 ∧
      sample false .low b = .high ∧ b.timing.tBitHighTo.toNat ≤ b.cnt.toNat) ∧
    (let b := { lastPulse 89 with bitcnt := 38 };
      b.st = .readingBits ∧ b.ph = true ∧ sample true .high b = .low ∧ b.cnt ≠ 0 ∧ b.bitcnt ≠ 39 ∧
      sample false .low b = .high ∧ b.cnt.toNat < b.timing.tBitHighTo.toNat) :=
  ⟨⟨rfl, rfl, sample_high rfl rfl, sample_low rfl rfl, by decide⟩, ⟨rfl, rfl, sample_low rfl rfl, by decide⟩,
    ⟨rfl, rfl, sample_low rfl rfl, rfl⟩,
    ⟨rfl, rfl, sample_low rfl rfl, by decide, rfl, sample_high rfl rfl, by decide⟩,
    rfl, rfl, sample_low rfl rfl, by decide, by decide, sample_high rfl rfl, by decide⟩

/-- Each of the four chained pulses at its first sample; a pulse of exactly the limit, and one sample longer; and a
limit of 0, which acts as 1 (V-R20). -/
theorem witness_ChainedPulseIsMeasuredExactly :
    (inState .waitSensorReady false 1).chainedPulse = some (.low, 100) ∧
    (inState .waitSensorReady true 1).chainedPulse = some (.high, 100) ∧
    (inState .readingBits false 1).chainedPulse = some (.low, 70) ∧
    (inState .readingBits true 1).chainedPulse = some (.high, 90) ∧ (inState .readingBits true 1).cnt = 1 ∧
    1 ≤ 90 ∧ 90 ≤ max (90 : Count).toNat 1 ∧ max (90 : Count).toNat 1 < 91 ∧
    ({ inState .waitSensorReady true 1 with timing := { Timing.reset with tAckHighTo := 0 } } : Block).chainedPulse =
      some (.high, 0) ∧ 1 ≤ max (0 : Count).toNat 1 ∧ max (0 : Count).toNat 1 < 2 := by
  decide

/-- The duration 0, the tie and its neighbour (V-S7). -/
theorem witness_ClassifyComparesWithTheThreshold : (0 : Count) = 0 ∧
    ((50 : Count) ≠ 0 ∧ (49 : Count).toNat < (50 : Count).toNat) ∧
    ((49 : Count) ≠ 0 ∧ (49 : Count).toNat ≤ (49 : Count).toNat) := by decide

theorem witness_FirstBitEndsAtTheTopOfTheFrame : (true :: List.replicate 39 false).length = 40 := by decide

/-- V-V4, V-V5, V-V12: 100.0 percent is sane and 100.1 is not. -/
theorem witness_ValidatingEndsInOneTick :
    ((validating 0x4100160056).st = .validating ∧ checksumValid (validating 0x4100160056).frame = false) ∧
    (checksumValid (validating 0x640116007B).frame = true ∧ frameSane (validating 0x640116007B).frame = false) ∧
    (checksumValid (validating 0x640016007A).frame = true ∧ frameSane (validating 0x640016007A).frame = true) := by
  decide

theorem witness_FailureEntryReplacesTheTick : (validating 0x4100160056).st ≠ .failed ∧
    (tick true .low (validating 0x4100160056)).st = .failed := by decide

/-- Each of the five sides of the listed conditions is met, at the limit; and an accepted `READ` clears `ERR`. -/
theorem witness_ErrorsAreRaisedExactlyWhereListed :
    (let b := inState .waitSensorAck true 100;
      b.st ≠ .failed ∧ (tickOn .high b).st = .failed ∧ (tickOn .high b).err = .noResponse) ∧
    (let b := inState .readingBits false 70;
      b.st ≠ .failed ∧ (tickOn .low b).st = .failed ∧ (tickOn .low b).err = .timeout) ∧
    (let b := validating 0x4100160056;
      b.st ≠ .failed ∧ (tickOn .low b).st = .failed ∧ (tickOn .low b).err = .checksumMismatch) ∧
    (let b := validating 0x640116007B;
      b.st ≠ .failed ∧ (tickOn .low b).st = .failed ∧ (tickOn .low b).err = .malformedFrame) ∧
    (let b := inState .readingBits true 0;
      b.st ≠ .failed ∧ (tickOn .low b).st = .failed ∧ (tickOn .low b).err = .malformedFrame) ∧
    ∃ t, exec .read (onto (settled.fail .timeout) []) = .next t :=
  ⟨by decide, by decide, by decide, by decide, by decide, _, rfl⟩

/-- Every arrow of R112 that a tick takes can be taken, at the limits. -/
theorem witness_everyArrow :
    TickArrow .low (inState .hostStart false 17999) .waitSensorAck false .none ∧
    TickArrow .low (inState .waitSensorAck false 29) .waitSensorAck true .none ∧
    TickArrow .low (inState .waitSensorAck true 100) .waitSensorReady false .none ∧
    TickArrow .high (inState .waitSensorAck true 100) .failed false .noResponse ∧
    TickArrow .high (inState .waitSensorReady false 100) .waitSensorReady true .none ∧
    TickArrow .low (inState .waitSensorReady false 100) .failed false .timeout ∧
    TickArrow .low (inState .waitSensorReady true 100) .readingBits false .none ∧
    TickArrow .high (inState .waitSensorReady true 100) .failed false .timeout ∧
    TickArrow .high (inState .readingBits false 70) .readingBits true .none ∧
    TickArrow .low (inState .readingBits false 70) .failed false .timeout ∧
    TickArrow .low (inState .readingBits true 90) .readingBits false .none ∧
    TickArrow .low (lastPulse 90) .validating false .none ∧
    TickArrow .high (inState .readingBits true 90) .failed false .timeout ∧
    TickArrow .low (inState .readingBits true 0) .failed false .malformedFrame ∧
    TickArrow .low (validating 0x4100160057) .done false .none ∧
    TickArrow .low (validating 0x4100160056) .failed false .checksumMismatch ∧
    TickArrow .low (validating 0x640116007B) .failed false .malformedFrame :=
  ⟨.startOver rfl (by decide), .delayOver rfl rfl (by decide), .sensorAnswered rfl rfl rfl,
    .noResponse rfl rfl rfl (by decide), .ackReleased rfl rfl rfl, .ackLowTimeout rfl rfl rfl (by decide),
    .firstMarker rfl rfl rfl, .ackHighTimeout rfl rfl rfl (by decide), .markerOver rfl rfl rfl,
    .markerTimeout rfl rfl rfl (by decide), .nextMarker rfl rfl rfl (by decide) (by decide),
    .lastBit rfl rfl rfl (by decide) (by decide), .dataTimeout rfl rfl rfl (by decide), .zeroDuration rfl rfl rfl rfl,
    .accepted rfl (by decide) (by decide), .checksumDiffers rfl (by decide), .notSane rfl (by decide) (by decide)⟩

/-- No arrow from Idle; and a tick, a Reset and a `READ` that move `ST`. -/
theorem witness_ProtocolMovesOnlyAlongTheTable :
    (∀ st ph err, ¬TickArrow .low settled st ph err) ∧
    (∃ t, step (onto (validating 0) [.tick true .low]) = .next t ∧ t.blk.st ≠ (validating 0).st) ∧
    (∃ t, step (onto (validating 0) [.reset]) = .next t ∧ t.blk.st ≠ (validating 0).st) ∧
    ∃ t, step (onto settled [.hostWrite 0 0x00000006]) = .next t ∧ t.blk.st ≠ settled.st :=
  ⟨fun _ _ _ h => by cases h <;> contradiction, ⟨_, rfl, by decide⟩, ⟨_, rfl, by decide⟩, _, rfl, by decide⟩

/-- A direct operation on a free and on a busy block; the tick of a free block; a Reset and a `READ` from Done. -/
theorem witness_DirectOperationsKeepTheTransaction :
    let done : Block := { settled with st := .done, valid := true, bitcnt := 40 }
    (Instr.release ≠ .read ∧ ∃ t, exec .release (onto done []) = .next t) ∧
    ((onto (validating 0) []).blk.busy = true ∧ ∃ t, exec .release (onto (validating 0) []) = .next t) ∧
    (measuring 0 9).st.busy = false ∧
    (∃ t, step (onto done [.reset]) = .next t ∧ (done.st = .done ∨ done.st = .failed) ∧ t.blk.st ≠ done.st) ∧
    ∃ t, step (onto done [.hostWrite 0 0x00000006]) = .next t ∧ t.blk.st ≠ done.st :=
  ⟨⟨by decide, _, rfl⟩, ⟨by decide, _, rfl⟩, by decide, ⟨_, rfl, by decide, by decide⟩, _, rfl, by decide⟩

/-- A `DRIVE_LOW`, the last tick of HostStart, and a Reset. -/
theorem witness_DirectionChangesOnlyWhereListed :
    (∃ t, step (onto settled [.hostWrite 0 0x00000002]) = .next t ∧ t.blk.dir ≠ settled.dir) ∧
    (let last : Block := { inState .hostStart false 17999 with dir := .output }
      ∃ t, step (onto last [.tick true .low]) = .next t ∧ t.blk.dir ≠ last.dir) ∧
    ∃ t, step (onto driven [.reset]) = .next t ∧ t.blk.dir ≠ driven.dir :=
  ⟨⟨_, rfl, by decide⟩, ⟨_, rfl, by decide⟩, _, rfl, by decide⟩

/-- A driven `MEASURE_PULSE High` that ends at once (V-M10), and a Reset. -/
theorem witness_PulseChangesOnlyAtCompletion :
    (let b : Block := { driven with sst := .measure, exp := .high, lim := 50 };
      ∃ t, step (onto b [.tick false .high]) = .next t ∧ t.blk.pulse ≠ b.pulse) ∧
    (let b : Block := { driven with pulse := { Block.reset.pulse with lvls := .high }, sst := .sample };
      ∃ t, step (onto b [.tick false .high]) = .next t ∧ t.blk.pulse ≠ b.pulse) ∧
    (let b : Block := { settled with pulse := { Block.reset.pulse with lvls := .high } };
      ∃ t, step (onto b [.reset]) = .next t ∧ t.blk.pulse ≠ b.pulse) :=
  ⟨⟨_, rfl, by decide⟩, ⟨_, rfl, by decide⟩, _, rfl, by decide⟩

/-- The entry to Done, an accepted `READ` from Done and from Failed, and the entry to Failed. -/
theorem witness_ResultsChangeOnlyAtStartAndEnd :
    (let b := validating 0x4100160057;
      ∃ t, step (onto b [.tick true .low]) = .next t ∧ (onto b [.tick true .low]).schedule.head? ≠ some .reset ∧
        (t.blk.valid ≠ b.valid ∨ t.blk.humX10 ≠ b.humX10 ∨ t.blk.tempX10 ≠ b.tempX10)) ∧
    (let b := validating 0x4100160056;
      ∃ t, step (onto b [.tick true .low]) = .next t ∧ t.blk.err ≠ b.err) ∧
    (let b : Block := { settled with st := .done, valid := true };
      ∃ t, step (onto b [.hostWrite 0 0x00000006]) = .next t ∧
        (t.blk.valid ≠ b.valid ∨ t.blk.humX10 ≠ b.humX10 ∨ t.blk.tempX10 ≠ b.tempX10)) ∧
    (let b := settled.fail .timeout;
      ∃ t, step (onto b [.hostWrite 0 0x00000006]) = .next t ∧ t.blk.err ≠ b.err) :=
  ⟨⟨_, rfl, by decide, by decide⟩, ⟨_, rfl, by decide⟩, ⟨_, rfl, by decide⟩, _, rfl, by decide⟩

/-- A state in the middle of a transaction that meets the register relations, with a next state. -/
theorem witness_EveryStepKeepsTheRegisterRelations :
    let s := onto { inState .readingBits true 70 with bitcnt := 39, frame := 0x20800B002B } [.tick true .low]
    s.blk.Inv ∧ ∃ t, step s = .next t := by
  refine ⟨?_, _, rfl⟩
  constructor <;> decide

/-- The timing registers of the witnesses for whole transactions: a start of one tick, and the largest delay, which
covers whatever `T_SETTLE_US` is. -/
def coveredTiming : Timing := { Timing.reset with tStart := 0, tAckDelay := 16777215 }

/-- The ticks before the first poll under `coveredTiming`. -/
def quietTicks : List TickInput := List.replicate 16777216 (true, .low)

theorem quietTicks_length : quietTicks.length = max coveredTiming.tStart.toNat 1 + max coveredTiming.tAckDelay.toNat 1 := by
  unfold quietTicks
  rw [List.length_replicate]
  decide

theorem covered : Config.tSettleUs.toNat ≤ max coveredTiming.tAckDelay.toNat 1 :=
  Nat.le_trans tSettleUs_le (by decide)

/-- `T_START` and `T_ACK_DELAY` at 0: two ticks to the first poll. -/
theorem witness_FirstPollComesAfterTheDelay :
    let u : Timing := { Timing.reset with tStart := 0, tAckDelay := 0 }
    (onto (timed u) []).blk.busy = false ∧ (∃ t, exec .read (onto (timed u) []) = .next t) ∧
    [((true, .low) : TickInput), (false, .high)].length = max u.tStart.toNat 1 + max u.tAckDelay.toNat 1 :=
  ⟨by decide, ⟨_, rfl⟩, by decide⟩

/-- Every timing register at 0: 86 ticks. -/
theorem witness_EveryTransactionEndsInBoundedTime :
    let u : Timing := ⟨0, 0, 0, 0, 0, 0, 0, 0⟩
    (onto (timed u) []).blk.busy = false ∧ (∃ t, exec .read (onto (timed u) []) = .next t) ∧
    longestTransaction u ≤ (List.replicate 86 ((true, .low) : TickInput)).length :=
  ⟨by decide, ⟨_, rfl⟩, by decide⟩

/-- A block with a reading and a block with an error agree on what a transaction reads. -/
theorem witness_TransactionsAreIndependent :
    let b : Block := { settled with st := .done, valid := true, humX10 := 650, bitcnt := 40, rej := true }
    let b' := settled.fail .timeout
    b ≠ b' ∧ b.busy = false ∧ b'.busy = false ∧ b.dir = b'.dir ∧ b.settle = b'.settle ∧ b.timing = b'.timing ∧
    (∃ t, exec .read (onto b []) = .next t) ∧ ∃ t, exec .read (onto b' []) = .next t :=
  ⟨by decide, by decide, by decide, by decide, by decide, by decide, ⟨_, rfl⟩, _, rfl⟩

/-- The window and one sample more. -/
theorem witness_SilentSensorGivesNoResponse :
    (onto (timed coveredTiming) []).blk.busy = false ∧
    Config.tSettleUs.toNat ≤ max coveredTiming.tAckDelay.toNat 1 ∧
    (∃ t, exec .read (onto (timed coveredTiming) []) = .next t) ∧
    quietTicks.length = max coveredTiming.tStart.toNat 1 + max coveredTiming.tAckDelay.toNat 1 ∧
    (∀ i ∈ List.replicate 101 ((false, .low) : TickInput), i.1 = false) ∧
    (List.replicate 100 ((false, .low) : TickInput)).length ≤ coveredTiming.tRespWindow.toNat ∧
    (List.replicate 101 ((false, .low) : TickInput)).length = coveredTiming.tRespWindow.toNat + 1 :=
  ⟨by decide, covered, ⟨_, rfl⟩, quietTicks_length, by decide, by decide, by decide⟩

/-- A sensor that answers with the frame `f`, with the given widths of a 0 and of a 1. -/
def sensor (f : RawFrame) (width0 width1 : Nat) : Waveform where
  wait := 100
  ackLow := 100
  ackHigh := 100
  bits := (List.range 40).map fun i => (70, if f.getLsbD (39 - i) then width1 else width0)

/-- The frame the default threshold reads from an answer. -/
def readFrame (w : Waveform) : RawFrame := w.bits.foldl (fun f p => shiftIn f (decide (49 < p.2))) 0

theorem sensor_fits : ∀ p ∈ [((0x640016007A : RawFrame), 49, 50), (0x640016007B, 1, 90), (0x640116007B, 49, 90)],
    (sensor p.1 p.2.1 p.2.2).Fits coveredTiming := by
  intro p hp
  constructor <;> revert p <;> decide

theorem sensor_frame : ∀ p ∈ [((0x640016007A : RawFrame), 49, 50), (0x640016007B, 1, 90), (0x640116007B, 49, 90)],
    readFrame (sensor p.1 p.2.1 p.2.2) = p.1 := by
  intro p hp
  simp only [List.mem_cons, List.not_mem_nil, or_false] at hp
  rcases hp with rfl | rfl | rfl <;> decide +kernel

/-- Answers with every pulse at its limit: a reading of 100.0 percent with the widths on both sides of the threshold,
a wrong checksum, a reading of 100.1 percent. -/
theorem witness_SensorAnswerIsDeliveredAsAReading (p : RawFrame × Nat × Nat)
    (hp : p ∈ [((0x640016007A : RawFrame), 49, 50), (0x640016007B, 1, 90), (0x640116007B, 49, 90)]) :
    ∃ (s : State) (w : Waveform) (quiet answer : List TickInput) (final : TickInput) (rest : List RunStep),
      s.blk.busy = false ∧ Config.tSettleUs.toNat ≤ max s.blk.timing.tAckDelay.toNat 1 ∧ w.Fits s.blk.timing ∧
      quiet.length = max s.blk.timing.tStart.toNat 1 + max s.blk.timing.tAckDelay.toNat 1 ∧
      answer.map (fun i => i.1) = w.levels.map (fun l => decide (l = .low)) ∧
      s.schedule = .hostWrite 0 0x00000006 :: tickSteps (quiet ++ answer) ++ tickSteps [final] ++ rest ∧
      readFrame w = p.1 := by
  refine ⟨onto (timed coveredTiming) _, sensor p.1 p.2.1 p.2.2, quietTicks,
    (sensor p.1 p.2.1 p.2.2).levels.map fun l => (decide (l = .low), .high), (true, .low), [], rfl, covered,
    sensor_fits p hp, quietTicks_length, ?_, rfl, ?_⟩
  · rw [List.map_map]
    rfl
  · exact sensor_frame p hp

/-- The three outcomes of the three answers. -/
theorem witness_SensorAnswer_outcomes : (checksumValid 0x640016007A = true ∧ frameSane 0x640016007A = true) ∧
    checksumValid 0x640016007B = false ∧ (checksumValid 0x640116007B = true ∧ frameSane 0x640116007B = false) := by
  decide

end Sys2Proof.Tests
end

section
/-! The run: what `step` does with the schedule, and one equation for each of the four kinds of run step
(00_scope.md R5). -/

namespace Sys2Proof.Machine

/-- The model's own choice when nothing is scheduled (log entry 2). -/
theorem step_of_schedule_nil {s : State} (h : s.schedule = []) : step s = freeTick s := by
  simp only [step, nextRunStep, h]

theorem step_of_schedule_cons {s : State} {e : RunStep} {rest : List RunStep} (h : s.schedule = e :: rest) :
    step s = perform e { s with schedule := rest } := by
  simp only [step, nextRunStep, h]

@[simp] theorem perform_tick (sensorLow : Bool) (draw : Level) (s : State) :
    perform (.tick sensorLow draw) s = .next { s with blk := tick sensorLow draw s.blk } := rfl

@[simp] theorem perform_reset (s : State) : perform .reset s = .next { s with blk := Block.reset } := rfl

@[simp] theorem perform_hostRead (n : RegNum) (s : State) :
    perform (.hostRead n) s = .next { s with readData := s.blk.readReg n } := rfl

@[simp] theorem perform_hostWrite (n : RegNum) (v : Word) (s : State) :
    perform (.hostWrite n v) s = hostWrite n v s := rfl

/-- Settles O6: an empty schedule gives the free tick, and each kind of run step at the head of the schedule is
performed on the state that has the rest of it still to come. -/
theorem stepPerformsTheNextRunStep : Obligations.StepPerformsTheNextRunStep := by
  intro s
  refine ⟨fun h => step_of_schedule_nil h, fun rest => ⟨?tick, ?reset, ?hostRead, ?hostWrite⟩⟩
  case tick =>
    intro sl draw h
    rw [step_of_schedule_cons h, perform_tick]
  case reset =>
    intro h
    rw [step_of_schedule_cons h, perform_reset, State.reset]
  case hostRead =>
    intro n h
    rw [step_of_schedule_cons h, perform_hostRead]
  case hostWrite =>
    intro n v h
    rw [step_of_schedule_cons h, perform_hostWrite]

end Sys2Proof.Machine
end

section
/-! What a tick of a transaction, a tick of the sampler and an acceptance can do, and what each leaves unchanged
(10_state.md R30; 41_line_ops.md R84). -/

namespace Sys2Proof.Machine

/-- The transaction and its result, which the direct operations do not touch (41_line_ops.md R84). -/
structure ProtocolView where
  st : Protocol
  ph : Bool
  bitcnt : BitVec 6
  frame : RawFrame
  err : ErrCode
  valid : Bool
  humX10 : BitVec 11
  tempX10 : BitVec 12

def Block.protocolView (b : Block) : ProtocolView :=
  ⟨b.st, b.ph, b.bitcnt, b.frame, b.err, b.valid, b.humX10, b.tempX10⟩

theorem Block.protocolView_inj {a b : Block} : a.protocolView = b.protocolView ↔
    a.st = b.st ∧ a.ph = b.ph ∧ a.bitcnt = b.bitcnt ∧ a.frame = b.frame ∧ a.err = b.err ∧ a.valid = b.valid ∧
      a.humX10 = b.humX10 ∧ a.tempX10 = b.tempX10 := by
  simp [Block.protocolView]

/-- A tick outside a transaction leaves the transaction and its result. -/
@[simp] theorem tickSampler_protocolView (lvl : Level) (b : Block) :
    (tickSampler lvl b).protocolView = b.protocolView := by
  unfold tickSampler
  split
  case h_3 =>
    unfold tickMeasure
    split
    · rfl
    · split <;> rfl
  all_goals rfl

@[simp] theorem settleTick_protocolView (a b : Block) : (settleTick a b).protocolView = b.protocolView := by
  simp [Block.protocolView]

theorem tick_protocolView_of_free {b : Block} (h : b.st.busy = false) (sl : Bool) (draw : Level) :
    (tick sl draw b).protocolView = b.protocolView := by
  simp [tick, tickOn, tickAction_free h]

/-- Every operation but `READ` leaves the transaction and its result. -/
theorem acceptance_protocolView {i : Instr} (h : i ≠ .read) (b : Block) :
    (acceptance i b).protocolView = b.protocolView := by
  cases i with
  | read => exact absurd rfl h
  | release | driveLow => simp [acceptance, Block.protocolView]
  | readLevel | measurePulse | sleepUs => rfl

/-- No acceptance writes `PULSE`. -/
@[simp] theorem acceptance_pulse (i : Instr) (b : Block) : (acceptance i b).pulse = b.pulse := by
  cases i <;> simp [acceptance]

/-- A tick of the sampler writes `PULSE` only when it completes an operation: `LVLS` for a `READ_LEVEL`, the rest for a
`MEASURE_PULSE`. -/
theorem tickSampler_pulse_cases (lvl : Level) (b : Block) :
    (tickSampler lvl b).pulse = b.pulse ∨
    (b.sst = .sample ∧ tickSampler lvl b = { b with pulse := { b.pulse with lvls := lvl }, sst := .idle }) ∨
    (b.sst = .measure ∧ (tickSampler lvl b).sst = .idle ∧ (tickSampler lvl b).pulse.lvls = b.pulse.lvls) := by
  unfold tickSampler
  split
  case h_1 => exact .inl rfl
  case h_2 => exact .inl rfl
  case h_3 h =>
    unfold tickMeasure
    split
    · exact .inr (.inr ⟨h, rfl, rfl⟩)
    · split
      · exact .inr (.inr ⟨h, rfl, rfl⟩)
      · exact .inl rfl
  case h_4 h => exact .inr (.inl ⟨h, rfl⟩)

/-- The block in Done with the reading of its frame (44_validate_decode.md R134, R135). -/
def Block.accepted (b : Block) : Block :=
  { b with
    humX10 := BitVec.ofNat 11 (tenths (byte0 b.frame) (byte1 b.frame))
    tempX10 := BitVec.ofNat 12 (tenths (byte2 b.frame) (byte3 b.frame))
    valid := true, st := .done, ph := false, cnt := 0 }

/-- What a tick of a transaction can do, but for (3) of R30: enter Failed with an error, enter Done with the reading of
a frame that passed both tests, or move on inside the transaction. -/
inductive Block.TransactionStep (b : Block) : Block → Prop
  | fail (code : ErrCode) (hcode : code ≠ .none) : b.TransactionStep (b.fail code)
  | accept (hst : b.st = .validating) (hsum : checksumValid b.frame = true) (hsane : frameSane b.frame = true) :
    b.TransactionStep b.accepted
  | move (st : Protocol) (ph : Bool) (bitcnt : BitVec 6) (cnt : Count) (frame : RawFrame) (dir : Direction)
      (hst : st.busy = true) :
    b.TransactionStep { b with st := st, ph := ph, bitcnt := bitcnt, cnt := cnt, frame := frame, dir := dir }

/-- The limit test of a wait or a pulse whose sample is still the awaited one (10_state.md R22 to R28). -/
def Block.countOrFail (limit : Count) (code : ErrCode) (b : Block) : Block :=
  if atLimit b.cnt limit then b.fail code else { b with cnt := b.cnt + 1 }

/-! The sampling rules by the level sampled. -/

theorem tickAckPoll_low (b : Block) :
    tickAckPoll .low b = { b with st := .waitSensorReady, ph := false, cnt := 1 } := rfl

theorem tickAckPoll_high (b : Block) : tickAckPoll .high b = b.countOrFail b.timing.tRespWindow .noResponse := rfl

theorem tickReadyLow_high (b : Block) : tickReadyLow .high b = { b with ph := true, cnt := 1 } := rfl

theorem tickReadyLow_low (b : Block) : tickReadyLow .low b = b.countOrFail b.timing.tAckLowTo .timeout := rfl

theorem tickReadyHigh_low (b : Block) :
    tickReadyHigh .low b = { b with st := .readingBits, ph := false, cnt := 1 } := rfl

theorem tickReadyHigh_high (b : Block) : tickReadyHigh .high b = b.countOrFail b.timing.tAckHighTo .timeout := rfl

theorem tickBitLow_high (b : Block) : tickBitLow .high b = { b with ph := true, cnt := 1 } := rfl

theorem tickBitLow_low (b : Block) : tickBitLow .low b = b.countOrFail b.timing.tBitLowTo .timeout := rfl

theorem tickBitHigh_high (b : Block) : tickBitHigh .high b = b.countOrFail b.timing.tBitHighTo .timeout := rfl

/-- The end of a data pulse is a captured bit, or MalformedFrame for a pulse of no samples. -/
theorem tickBitHigh_low_cases (b : Block) :
    tickBitHigh .low b = b.fail .malformedFrame ∨ ∃ c, tickBitHigh .low b = b.capture c := by
  simp only [tickBitHigh]
  split
  · exact .inl rfl
  · exact .inr ⟨_, rfl⟩

/-- The capture of a bit ends the frame or starts the next marker. -/
theorem Block.capture_cases (c : Bool) (b : Block) :
    (b.bitcnt + 1 = 40 ∧ b.capture c = { b with
      frame := shiftIn b.frame c, bitcnt := b.bitcnt + 1, st := .validating, ph := false, cnt := 0 }) ∨
    (b.bitcnt + 1 ≠ 40 ∧ b.capture c = { b with
      frame := shiftIn b.frame c, bitcnt := b.bitcnt + 1, ph := false, cnt := 1 }) := by
  unfold Block.capture
  split
  · next h => exact .inl ⟨h, rfl⟩
  · next h => exact .inr ⟨h, rfl⟩

/-! Each rule of a transaction is such a step. -/

section
variable {b : Block}

theorem transactionStep_countOrFail (h : b.st.busy = true) (limit : Count) {code : ErrCode} (hcode : code ≠ .none) :
    b.TransactionStep (b.countOrFail limit code) := by
  unfold Block.countOrFail
  split
  · exact .fail code hcode
  · exact .move _ _ _ _ _ _ h

theorem transactionStep_tickHostStart (h : b.st.busy = true) : b.TransactionStep (tickHostStart b) := by
  unfold tickHostStart
  split
  · exact .move _ _ _ _ _ _ rfl
  · exact .move _ _ _ _ _ _ h

theorem transactionStep_tickAckDelay (h : b.st.busy = true) : b.TransactionStep (tickAckDelay b) := by
  unfold tickAckDelay
  split <;> exact .move _ _ _ _ _ _ h

theorem transactionStep_tickAckPoll (h : b.st.busy = true) (lvl : Level) : b.TransactionStep (tickAckPoll lvl b) := by
  cases lvl with
  | low => exact .move _ _ _ _ _ _ rfl
  | high => exact transactionStep_countOrFail h _ (by decide)

theorem transactionStep_tickReadyLow (h : b.st.busy = true) (lvl : Level) :
    b.TransactionStep (tickReadyLow lvl b) := by
  cases lvl with
  | low => exact transactionStep_countOrFail h _ (by decide)
  | high => exact .move _ _ _ _ _ _ h

theorem transactionStep_tickReadyHigh (h : b.st.busy = true) (lvl : Level) :
    b.TransactionStep (tickReadyHigh lvl b) := by
  cases lvl with
  | low => exact .move _ _ _ _ _ _ rfl
  | high => exact transactionStep_countOrFail h _ (by decide)

theorem transactionStep_tickBitLow (h : b.st.busy = true) (lvl : Level) : b.TransactionStep (tickBitLow lvl b) := by
  cases lvl with
  | low => exact transactionStep_countOrFail h _ (by decide)
  | high => exact .move _ _ _ _ _ _ h

theorem transactionStep_tickBitHigh (h : b.st.busy = true) (lvl : Level) :
    b.TransactionStep (tickBitHigh lvl b) := by
  cases lvl with
  | low =>
    obtain hf | ⟨c, hc⟩ := tickBitHigh_low_cases b
    · rw [hf]
      exact .fail _ (by decide)
    · rw [hc]
      obtain ⟨-, hc⟩ | ⟨-, hc⟩ := b.capture_cases c <;> rw [hc]
      · exact .move _ _ _ _ _ _ rfl
      · exact .move _ _ _ _ _ _ h
  | high => exact transactionStep_countOrFail h _ (by decide)

theorem transactionStep_tickValidate (hst : b.st = .validating) : b.TransactionStep (tickValidate b) := by
  unfold tickValidate
  split
  · exact .fail _ (by decide)
  · split
    · exact .fail _ (by decide)
    · next hsum hsane => exact .accept hst (by simpa using hsum) (by simpa using hsane)

/-- The action of a tick in a transaction. -/
theorem transactionStep_tickAction (h : b.st.busy = true) (lvl : Level) : b.TransactionStep (tickAction lvl b) := by
  unfold tickAction
  split
  case h_1 hst => simp [hst, Protocol.busy] at h
  case h_2 => exact transactionStep_tickHostStart h
  case h_3 =>
    split
    · exact transactionStep_tickAckPoll h lvl
    · exact transactionStep_tickAckDelay h
  case h_4 =>
    split
    · exact transactionStep_tickReadyHigh h lvl
    · exact transactionStep_tickReadyLow h lvl
  case h_5 =>
    split
    · exact transactionStep_tickBitHigh h lvl
    · exact transactionStep_tickBitLow h lvl
  case h_6 hst => exact transactionStep_tickValidate hst
  case h_7 hst => simp [hst, Protocol.busy] at h
  case h_8 hst => simp [hst, Protocol.busy] at h

end

/-- A transaction leaves the sampler's registers and `PULSE`. -/
theorem Block.TransactionStep.sampler_unchanged {b b' : Block} (h : b.TransactionStep b') :
    b'.sst = b.sst ∧ b'.exp = b.exp ∧ b'.lim = b.lim ∧ b'.pulse = b.pulse := by
  cases h <;> exact ⟨rfl, rfl, rfl, rfl⟩

/-- In a transaction the reading changes only at the entry to Done (10_state.md R20). -/
theorem Block.TransactionStep.reading_cases {b b' : Block} (h : b.TransactionStep b') :
    (b'.valid = b.valid ∧ b'.humX10 = b.humX10 ∧ b'.tempX10 = b.tempX10) ∨ (b.st = .validating ∧ b'.st = .done) := by
  cases h with
  | fail | move => exact .inl ⟨rfl, rfl, rfl⟩
  | accept hst => exact .inr ⟨hst, rfl⟩

/-- In a transaction `ERR` changes only at the entry to Failed (10_state.md R20). -/
theorem Block.TransactionStep.err_cases {b b' : Block} (h : b.TransactionStep b') :
    b'.err = b.err ∨ b'.st = .failed := by
  cases h with
  | fail => exact .inr rfl
  | accept | move => exact .inl rfl

end Sys2Proof.Machine
end

section
/-! The register relations of `Block.Inv`, and that every rule of a tick and every acceptance keeps them (10_state.md
R15 to R21). A block in a transaction meets them by what holds in all its states and by its place in the protocol; a
block outside one by the transaction it last ran and by its sampler. -/

namespace Sys2Proof.Machine

/-! The relations in a transaction. -/

/-- The relations that hold in every state of a transaction. -/
structure Block.Running (b : Block) : Prop where
  samplerIdle : b.sst = .idle
  invalid : b.valid = false
  noHumidity : b.humX10 = 0
  noTemperature : b.tempX10 = 0
  noError : b.err = .none
  frameBound : b.frame.toNat < 2 ^ b.bitcnt.toNat
  pulseZero : b.pulse.zero = true → b.pulse.dur = 0 ∧ b.pulse.timedOut = false

/-- The relations of `DIR`, `BITCNT` and `CNT` that go with each state and phase of a transaction. -/
def Block.InPlace (b : Block) : Prop :=
  match b.st, b.ph with
  | .hostStart, false => b.dir = .output ∧ b.bitcnt = 0 ∧ b.cnt.toNat < duration b.timing.tStart
  | .waitSensorAck, false => b.dir = .input ∧ b.bitcnt = 0 ∧ b.cnt.toNat < duration b.timing.tAckDelay
  | .waitSensorAck, true => b.dir = .input ∧ b.bitcnt = 0 ∧ b.cnt.toNat ≤ b.timing.tRespWindow.toNat
  | .waitSensorReady, false =>
    b.dir = .input ∧ b.bitcnt = 0 ∧ 0 < b.cnt.toNat ∧ b.cnt.toNat ≤ duration b.timing.tAckLowTo
  | .waitSensorReady, true =>
    b.dir = .input ∧ b.bitcnt = 0 ∧ 0 < b.cnt.toNat ∧ b.cnt.toNat ≤ duration b.timing.tAckHighTo
  | .readingBits, false =>
    b.dir = .input ∧ b.bitcnt.toNat < 40 ∧ 0 < b.cnt.toNat ∧ b.cnt.toNat ≤ duration b.timing.tBitLowTo
  | .readingBits, true =>
    b.dir = .input ∧ b.bitcnt.toNat < 40 ∧ 0 < b.cnt.toNat ∧ b.cnt.toNat ≤ duration b.timing.tBitHighTo
  | .validating, false => b.dir = .input ∧ b.bitcnt = 40
  | _, _ => False

theorem Block.Inv.running {b : Block} (h : b.Inv) (hb : b.st.busy = true) : b.Running := by
  have hdone : b.st ≠ .done := by rintro e; simp [e, Protocol.busy] at hb
  have hfailed : b.st ≠ .failed := by rintro e; simp [e, Protocol.busy] at hb
  obtain ⟨hhum, htemp⟩ := h.noStaleReading hdone
  exact {
    samplerIdle := h.samplerIdle hb
    invalid := by simpa [hdone] using h.validIffDone
    noHumidity := hhum
    noTemperature := htemp
    noError := by simpa [hfailed] using h.errIffFailed
    frameBound := h.frameBound
    pulseZero := h.pulseZero }

/-- The relations put a block of a transaction in its place, one case for each state and phase. -/
theorem Block.Inv.inPlace {b : Block} (h : b.Inv) (hb : b.st.busy = true) : b.InPlace := by
  obtain ⟨hphase, hreading, hfull, hzero, -, -, -, -, -, -, hdriven, hreleased, hstart, hdelay, hpoll, hackLow,
    hackHigh, hbitLow, hbitHigh, -, -, -⟩ := h
  cases hst : b.st <;> cases hp : b.ph <;> simp_all [Block.InPlace, Protocol.busy]

/-- In a transaction its common relations and the block's place are all the relations there are. -/
theorem Block.Running.inv {b : Block} (hr : b.Running) (hpl : b.InPlace) : b.Inv := by
  unfold Block.InPlace at hpl
  split at hpl
  case h_9 => contradiction
  all_goals
    rename_i hst hp
    refine {
      samplerIdle := fun _ => hr.samplerIdle
      noStaleReading := fun _ => ⟨hr.noHumidity, hr.noTemperature⟩
      frameBound := hr.frameBound
      pulseZero := hr.pulseZero
      validIffDone := by simp [hr.invalid, hst]
      errIffFailed := by simp [hr.noError, hst]
      cntSleep := by simp [hr.samplerIdle]
      cntMeasure := by simp [hr.samplerIdle]
      phase := ?_, bitcntReading := ?_, bitcntFull := ?_, bitcntZero := ?_, reading := ?_, drivenInStart := ?_
      releasedAfter := ?_, cntStart := ?_, cntDelay := ?_, cntPoll := ?_, cntAckLow := ?_, cntAckHigh := ?_
      cntBitLow := ?_, cntBitHigh := ?_ } <;> simp [hst, hp, hpl]

/-- A move inside a transaction that captures no bit keeps the relations of every state. -/
theorem Block.Running.move {b : Block} (h : b.Running) (st : Protocol) (ph : Bool) (cnt : Count) (dir : Direction) :
    ({ b with st := st, ph := ph, cnt := cnt, dir := dir } : Block).Running :=
  ⟨h.samplerIdle, h.invalid, h.noHumidity, h.noTemperature, h.noError, h.frameBound, h.pulseZero⟩

/-- The entry to Failed (60_exceptions.md R142). -/
theorem Block.Running.fail_inv {b : Block} (h : b.Running) {code : ErrCode} (hcode : code ≠ .none) :
    (b.fail code).Inv := by
  obtain ⟨hsst, hvalid, hhum, htemp, -, -, hpulse⟩ := h
  constructor <;> simp_all [Protocol.busy]

/-! The rules of a transaction. -/

/-- A wait that is not over at this tick is not over at the next. -/
theorem succ_lt_duration {c l : Count} (hc : c.toNat < duration l) (h : ¬reaches c l = true) :
    (c + 1).toNat < duration l := by
  rw [reaches_iff] at h
  have := le_duration l
  rw [count_succ_toNat hc (duration_lt l)]
  omega

/-- A pulse below its limit is within it after one more sample. -/
theorem succ_in_pulse {c l : Count} (hlt : c.toNat < l.toNat) (hc : (c + 1).toNat = c.toNat + 1) :
    0 < (c + 1).toNat ∧ (c + 1).toNat ≤ duration l := by
  have := le_duration l
  omega

section
variable {b : Block} (hr : b.Running)
include hr

theorem inv_countOrFail {limit : Count} {code : ErrCode} (hcode : code ≠ .none)
    (hpl : b.cnt.toNat < limit.toNat → (b.cnt + 1).toNat = b.cnt.toNat + 1 →
      ({ b with cnt := b.cnt + 1 } : Block).InPlace) :
    (b.countOrFail limit code).Inv := by
  unfold Block.countOrFail
  split
  · exact hr.fail_inv hcode
  · next h =>
    rw [atLimit_iff, Nat.not_le] at h
    exact (hr.move _ _ _ _).inv (hpl h (count_succ_toNat h limit.isLt))

/-- The first 39 captured bits lead to the next marker, the 40th to Validating. -/
theorem inv_capture (hst : b.st = .readingBits) (hdir : b.dir = .input) (hbits : b.bitcnt.toNat < 40) (c : Bool) :
    (b.capture c).Inv := by
  have hbit : (b.bitcnt + 1).toNat = b.bitcnt.toNat + 1 := by
    rw [BitVec.toNat_add, show (1 : BitVec 6).toNat = 1 from rfl]
    omega
  have hframe : (shiftIn b.frame c).toNat < 2 ^ (b.bitcnt + 1).toNat := by
    have := hr.frameBound
    have := c.toNat_le
    have := Nat.mod_le (2 * b.frame.toNat) (2 ^ 40)
    rw [shiftIn_toNat, hbit, Nat.pow_succ]
    omega
  have hrun : ({ b with frame := shiftIn b.frame c, bitcnt := b.bitcnt + 1 } : Block).Running :=
    { hr with frameBound := hframe }
  obtain ⟨hfull, hc⟩ | ⟨hmore, hc⟩ := b.capture_cases c <;> rw [hc]
  · exact (hrun.move _ _ _ _).inv ⟨hdir, hfull⟩
  · have hlt : (b.bitcnt + 1).toNat < 40 := by
      have : (b.bitcnt + 1).toNat ≠ 40 := fun e => hmore (BitVec.eq_of_toNat_eq e)
      omega
    refine (hrun.move _ _ _ _).inv ?_
    simp only [Block.InPlace, hst]
    exact ⟨hdir, hlt, by decide, duration_pos _⟩

/-- The entry to Done: the reading of a sane frame fits its registers. -/
theorem inv_accepted (hbits : b.bitcnt = 40) (hsum : checksumValid b.frame = true) (hsane : frameSane b.frame = true) :
    b.accepted.Inv := by
  obtain ⟨hhum, htemp⟩ := tenths_le_of_frameSane hsane
  have hhum : b.accepted.humX10.toNat = tenths (byte0 b.frame) (byte1 b.frame) := by
    rw [Block.accepted, BitVec.toNat_ofNat]
    omega
  have htemp : b.accepted.tempX10.toNat = tenths (byte2 b.frame) (byte3 b.frame) := by
    rw [Block.accepted, BitVec.toNat_ofNat]
    omega
  obtain ⟨hsst, -, -, -, herr, hframe, hpulse⟩ := hr
  constructor <;> simp_all [Block.accepted, Protocol.busy]

variable (hpl : b.InPlace)
include hpl

theorem inv_tickHostStart (hst : b.st = .hostStart) : (tickHostStart b).Inv := by
  cases hp : b.ph with
  | true => simp [Block.InPlace, hst, hp] at hpl
  | false =>
    simp only [Block.InPlace, hst, hp] at hpl
    obtain ⟨hdir, hbits, hcnt⟩ := hpl
    unfold tickHostStart
    split
    · exact (hr.move _ _ _ _).inv ⟨rfl, hbits, duration_pos _⟩
    · next h =>
      refine (hr.move _ _ _ _).inv ?_
      simp only [Block.InPlace, hst, hp]
      exact ⟨hdir, hbits, succ_lt_duration hcnt h⟩

theorem inv_tickAckDelay (hst : b.st = .waitSensorAck) (hp : b.ph = false) : (tickAckDelay b).Inv := by
  simp only [Block.InPlace, hst, hp] at hpl
  obtain ⟨hdir, hbits, hcnt⟩ := hpl
  unfold tickAckDelay
  split
  · refine (hr.move _ _ _ _).inv ?_
    simp only [Block.InPlace, hst]
    exact ⟨hdir, hbits, Nat.zero_le _⟩
  · next h =>
    refine (hr.move _ _ _ _).inv ?_
    simp only [Block.InPlace, hst, hp]
    exact ⟨hdir, hbits, succ_lt_duration hcnt h⟩

theorem inv_tickAckPoll (hst : b.st = .waitSensorAck) (hp : b.ph = true) (lvl : Level) : (tickAckPoll lvl b).Inv := by
  simp only [Block.InPlace, hst, hp] at hpl
  obtain ⟨hdir, hbits, -⟩ := hpl
  cases lvl with
  | low => exact (hr.move _ _ _ _).inv ⟨hdir, hbits, Nat.one_pos, duration_pos _⟩
  | high =>
    refine inv_countOrFail hr (by decide) fun hlim hcnt => ?_
    simp only [Block.InPlace, hst, hp]
    exact ⟨hdir, hbits, by omega⟩

theorem inv_tickReadyLow (hst : b.st = .waitSensorReady) (hp : b.ph = false) (lvl : Level) :
    (tickReadyLow lvl b).Inv := by
  simp only [Block.InPlace, hst, hp] at hpl
  obtain ⟨hdir, hbits, -⟩ := hpl
  cases lvl with
  | low =>
    refine inv_countOrFail hr (by decide) fun hlim hcnt => ?_
    simp only [Block.InPlace, hst, hp]
    exact ⟨hdir, hbits, succ_in_pulse hlim hcnt⟩
  | high =>
    refine (hr.move _ _ _ _).inv ?_
    simp only [Block.InPlace, hst]
    exact ⟨hdir, hbits, Nat.one_pos, duration_pos _⟩

theorem inv_tickReadyHigh (hst : b.st = .waitSensorReady) (hp : b.ph = true) (lvl : Level) :
    (tickReadyHigh lvl b).Inv := by
  simp only [Block.InPlace, hst, hp] at hpl
  obtain ⟨hdir, hbits, -⟩ := hpl
  cases lvl with
  | low => exact (hr.move _ _ _ _).inv ⟨hdir, by simp [hbits], Nat.one_pos, duration_pos _⟩
  | high =>
    refine inv_countOrFail hr (by decide) fun hlim hcnt => ?_
    simp only [Block.InPlace, hst, hp]
    exact ⟨hdir, hbits, succ_in_pulse hlim hcnt⟩

theorem inv_tickBitLow (hst : b.st = .readingBits) (hp : b.ph = false) (lvl : Level) : (tickBitLow lvl b).Inv := by
  simp only [Block.InPlace, hst, hp] at hpl
  obtain ⟨hdir, hbits, -⟩ := hpl
  cases lvl with
  | low =>
    refine inv_countOrFail hr (by decide) fun hlim hcnt => ?_
    simp only [Block.InPlace, hst, hp]
    exact ⟨hdir, hbits, succ_in_pulse hlim hcnt⟩
  | high =>
    refine (hr.move _ _ _ _).inv ?_
    simp only [Block.InPlace, hst]
    exact ⟨hdir, hbits, Nat.one_pos, duration_pos _⟩

theorem inv_tickBitHigh (hst : b.st = .readingBits) (hp : b.ph = true) (lvl : Level) : (tickBitHigh lvl b).Inv := by
  simp only [Block.InPlace, hst, hp] at hpl
  obtain ⟨hdir, hbits, -⟩ := hpl
  cases lvl with
  | low =>
    obtain hf | ⟨c, hc⟩ := tickBitHigh_low_cases b
    · rw [hf]
      exact hr.fail_inv (by decide)
    · rw [hc]
      exact inv_capture hr hst hdir hbits c
  | high =>
    refine inv_countOrFail hr (by decide) fun hlim hcnt => ?_
    simp only [Block.InPlace, hst, hp]
    exact ⟨hdir, hbits, succ_in_pulse hlim hcnt⟩

theorem inv_tickValidate (hst : b.st = .validating) : (tickValidate b).Inv := by
  have hbits : b.bitcnt = 40 := by
    cases hp : b.ph <;> simp [Block.InPlace, hst, hp] at hpl
    exact hpl.2
  unfold tickValidate
  split
  · exact hr.fail_inv (by decide)
  · split
    · exact hr.fail_inv (by decide)
    · next hsum hsane => exact inv_accepted hr hbits (by simpa using hsum) (by simpa using hsane)

end

/-- The action of a tick in a transaction keeps the relations. -/
theorem inv_tickAction_of_busy {b : Block} (h : b.Inv) (hb : b.st.busy = true) (lvl : Level) :
    (tickAction lvl b).Inv := by
  have hr := h.running hb
  have hpl := h.inPlace hb
  unfold tickAction
  split
  case h_1 hst => simp [hst, Protocol.busy] at hb
  case h_2 hst => exact inv_tickHostStart hr hpl hst
  case h_3 hst =>
    split
    · next hp => exact inv_tickAckPoll hr hpl hst hp lvl
    · next hp => exact inv_tickAckDelay hr hpl hst (by simpa using hp)
  case h_4 hst =>
    split
    · next hp => exact inv_tickReadyHigh hr hpl hst hp lvl
    · next hp => exact inv_tickReadyLow hr hpl hst (by simpa using hp) lvl
  case h_5 hst =>
    split
    · next hp => exact inv_tickBitHigh hr hpl hst hp lvl
    · next hp => exact inv_tickBitLow hr hpl hst (by simpa using hp) lvl
  case h_6 hst => exact inv_tickValidate hr hpl hst
  case h_7 hst => simp [hst, Protocol.busy] at hb
  case h_8 hst => simp [hst, Protocol.busy] at hb

/-! The relations outside a transaction. -/

/-- The relations of a sampler operation and of `PULSE`. -/
structure Block.SamplerInv (b : Block) : Prop where
  sleep : b.sst = .sleep → b.cnt.toNat < duration b.lim
  measure : b.sst = .measure → b.cnt.toNat ≤ b.lim.toNat
  pulseZero : b.pulse.zero = true → b.pulse.dur = 0 ∧ b.pulse.timedOut = false

theorem Block.Inv.samplerInv {b : Block} (h : b.Inv) : b.SamplerInv := ⟨h.cntSleep, h.cntMeasure, h.pulseZero⟩

theorem Protocol.ne_of_not_busy {p : Protocol} (h : p.busy = false) : p ≠ .hostStart ∧ p ≠ .waitSensorAck ∧
    p ≠ .waitSensorReady ∧ p ≠ .readingBits ∧ p ≠ .validating := by
  obtain rfl | rfl | rfl := (Protocol.busy_eq_false_iff p).mp h <;> decide

/-- Outside a transaction the relations are those of the sampler and of the transaction that is over. -/
theorem Block.Inv.of_protocolView {b b' : Block} (h : b.Inv) (hfree : b.st.busy = false)
    (hview : b'.protocolView = b.protocolView) (hs : b'.SamplerInv) : b'.Inv := by
  obtain ⟨hstart, hack, hready, hbits, -⟩ := Protocol.ne_of_not_busy hfree
  rw [Block.protocolView_inj] at hview
  cases b
  cases b'
  obtain ⟨rfl, rfl, rfl, rfl, rfl, rfl, rfl, rfl⟩ := hview
  exact { h with
    samplerIdle := fun e => absurd (hfree.symm.trans e) (by decide)
    drivenInStart := fun e => absurd e hstart
    releasedAfter := fun e => absurd (hfree.symm.trans e) (by decide)
    cntStart := fun e => absurd e hstart
    cntDelay := fun e => absurd e hack
    cntPoll := fun e => absurd e hack
    cntAckLow := fun e => absurd e hready
    cntAckHigh := fun e => absurd e hready
    cntBitLow := fun e => absurd e hbits
    cntBitHigh := fun e => absurd e hbits
    cntSleep := hs.sleep
    cntMeasure := hs.measure
    pulseZero := hs.pulseZero }

/-- A tick of the sampler keeps its relations. -/
theorem samplerInv_tickSampler {b : Block} (h : b.SamplerInv) (lvl : Level) :
    (tickSampler lvl b).SamplerInv := by
  unfold tickSampler
  split
  case h_1 => exact h
  case h_2 hsst =>
    refine ⟨fun hrun => ?_, fun hrun => ?_, h.pulseZero⟩
    · have hover : ¬reaches b.cnt b.lim = true := by
        intro e
        simp [tickSleep, e] at hrun
      exact succ_lt_duration (h.sleep hsst) hover
    · simp only [tickSleep] at hrun
      split at hrun <;> contradiction
  case h_3 hsst =>
    unfold tickMeasure
    split
    · exact ⟨nofun, nofun, fun hz => ⟨by simpa using hz, rfl⟩⟩
    · split
      · exact ⟨nofun, nofun, nofun⟩
      · next hlim =>
        rw [atLimit_iff, Nat.not_le] at hlim
        refine ⟨fun e => by simp [hsst] at e, fun _ => ?_, h.pulseZero⟩
        change (b.cnt + 1).toNat ≤ b.lim.toNat
        rw [count_succ_toNat hlim b.lim.isLt]
        exact hlim
  case h_4 => exact ⟨nofun, nofun, h.pulseZero⟩

/-- A block with no sampler operation running. -/
theorem Block.SamplerInv.of_idle {b : Block} (hidle : b.sst = .idle)
    (hpulse : b.pulse.zero = true → b.pulse.dur = 0 ∧ b.pulse.timedOut = false) : b.SamplerInv :=
  ⟨by simp [hidle], by simp [hidle], hpulse⟩

/-- Every operation starts its count at 0. -/
theorem samplerInv_acceptance (i : Instr) {b : Block} (h : b.SamplerInv) (hidle : b.sst = .idle) :
    (acceptance i b).SamplerInv := by
  cases i with
  | release | driveLow | read => exact .of_idle (by simpa [acceptance] using hidle) (by simpa using h.pulseZero)
  | readLevel => exact ⟨nofun, nofun, h.pulseZero⟩
  | measurePulse => exact ⟨nofun, fun _ => Nat.zero_le _, h.pulseZero⟩
  | sleepUs => exact ⟨fun _ => duration_pos _, nofun, h.pulseZero⟩

/-! Every kind of step. -/

/-- No relation reads `SETTLE`. -/
theorem inv_settleTick {b : Block} (h : b.Inv) (before : Block) : (settleTick before b).Inv := by
  obtain ⟨⟩ := h
  constructor <;> simpa

theorem inv_tick {b : Block} (h : b.Inv) (sl : Bool) (draw : Level) : (tick sl draw b).Inv := by
  refine inv_settleTick ?_ b
  cases hb : b.st.busy with
  | true => exact inv_tickAction_of_busy h hb _
  | false =>
    rw [tickAction_free hb]
    exact h.of_protocolView hb (tickSampler_protocolView _ b) (samplerInv_tickSampler h.samplerInv _)

theorem inv_reset : Block.reset.Inv := by
  constructor <;> decide

/-- The acceptance of `READ` begins HostStart with everything cleared (43_protocol_read.md R100). -/
theorem inv_startRead {b : Block} (h : b.Inv) (hidle : b.sst = .idle) : b.startRead.Inv := by
  refine Block.Running.inv ?_ ?_
  · constructor <;> simp [hidle]
    exact h.pulseZero
  · simp [Block.InPlace, duration_pos]

theorem inv_acceptance {b : Block} (h : b.Inv) (hb : b.busy = false) (i : Instr) : (acceptance i b).Inv := by
  obtain ⟨hfree, hidle⟩ := b.busy_eq_false.mp hb
  by_cases hi : i = .read
  · subst hi
    exact inv_startRead h hidle
  · exact h.of_protocolView hfree (acceptance_protocolView hi b) (samplerInv_acceptance i h.samplerInv hidle)

/-- A free block takes any timing registers. -/
theorem inv_writeTiming {b : Block} (h : b.Inv) (hb : b.busy = false) (n : RegNum) (v : Word) :
    (b.writeTiming n v).Inv :=
  h.of_protocolView (b.busy_eq_false.mp hb).1 rfl ⟨h.cntSleep, h.cntMeasure, h.pulseZero⟩

/-- No relation reads `REJ`. -/
theorem inv_reject {b : Block} (h : b.Inv) : b.reject.Inv := by
  obtain ⟨⟩ := h
  constructor <;> assumption

/-- Settles O46, the base case of the invariant. -/
theorem registerRelationsHoldAtReset : Obligations.RegisterRelationsHoldAtReset := inv_reset

/-- Settles O47, by the six kinds of step: each rule of a tick keeps the relations, and so do Reset, a refused write and
what a free block accepts. -/
theorem everyStepKeepsTheRegisterRelations : Obligations.EveryStepKeepsTheRegisterRelations := by
  intro s t h hstep
  obtain ⟨sl, draw, hblk, -⟩ | ⟨-, hblk⟩ | ⟨-, -, hblk⟩ | ⟨-, -, -, hblk | hblk⟩ | ⟨-, i, -, -, hb, hblk⟩ |
    ⟨n, v, -, -, hb, hblk⟩ := step_cases hstep <;> rw [hblk]
  · exact inv_tick h sl draw
  · exact inv_reset
  · exact h
  · exact h
  · exact inv_reject h
  · exact inv_acceptance h hb i
  · exact inv_writeTiming h hb n v

end Sys2Proof.Machine
end

section
/-! The tick (10_state.md R30), the sample (R31) and the pin (R11, R12). -/

namespace Sys2Proof.Machine

theorem Block.wire_eq (b : Block) (sl : Bool) :
    b.wire sl = if b.dir = .output ∨ sl = true then .low else .high := by
  cases hd : b.dir <;> simp [Block.wire, Block.pinOe, Block.pinO, hd]

/-- Settles O15, by the two values of the wire. -/
theorem wireIsLowWhenAnyonePullsLow : Obligations.WireIsLowWhenAnyonePullsLow := by
  intro b sl
  rw [b.wire_eq]
  exact ⟨fun h => if_pos h, fun h => if_neg h⟩

/-- Settles O16: `pin_o` is Low by definition and `pin_oe` is the test of `DIR`. -/
theorem pinDrivesLowOrNothing : Obligations.PinDrivesLowOrNothing :=
  fun b => ⟨rfl, by simp [Block.pinOe]⟩

/-- Settles O17, by the three branches of `sampleAt`. -/
theorem sampleFollowsTheRule : Obligations.SampleFollowsTheRule :=
  ⟨Config.tSettleUs_pos, fun _ sl draw =>
    ⟨fun h => sample_output h sl draw, fun h hs => sample_unsettled h hs sl draw,
      fun h hs => sample_settled h hs sl draw⟩⟩

theorem tick_eq_of_action {b b' : Block} {sl : Bool} {draw : Level} (h : tickAction (sample sl draw b) b = b') :
    tick sl draw b = settleTick b b' := by
  rw [tick, tickOn, h]

/-! The action of a tick outside a transaction, by the state of the sampler. -/

theorem tickSampler_idle {b : Block} (h : b.sst = .idle) (lvl : Level) : tickSampler lvl b = b := by
  simp [tickSampler, h]

theorem tickSampler_sleep {b : Block} (h : b.sst = .sleep) (lvl : Level) : tickSampler lvl b = tickSleep b := by
  simp [tickSampler, h]

theorem tickSampler_measure {b : Block} (h : b.sst = .measure) (lvl : Level) :
    tickSampler lvl b = tickMeasure lvl b := by simp [tickSampler, h]

theorem tickSampler_sample {b : Block} (h : b.sst = .sample) (lvl : Level) :
    tickSampler lvl b = tickReadLevel lvl b := by simp [tickSampler, h]

/-- A rule that does not sample performs the same action whatever the sample is (10_state.md R30 (1)). -/
theorem tickAction_eq_of_not_sampling {b : Block} (h : b.busy = false ∨ b.st = .hostStart ∨
    (b.st = .waitSensorAck ∧ b.ph = false) ∨ b.st = .validating ∨ (b.st.busy = false ∧ b.sst = .sleep))
    (lvl lvl' : Level) : tickAction lvl b = tickAction lvl' b := by
  obtain h | hst | ⟨hst, hp⟩ | hst | ⟨hfree, hsst⟩ := h
  · obtain ⟨hfree, hsst⟩ := b.busy_eq_false.mp h
    simp only [tickAction_free hfree, tickSampler_idle hsst]
  · simp only [tickAction_hostStart hst]
  · simp only [tickAction_ackDelay hst hp]
  · simp only [tickAction_validating hst]
  · simp only [tickAction_free hfree, tickSampler_sleep hsst]

/-- A tick of a free block changes `SETTLE` alone. -/
theorem tick_free {b : Block} (h : b.busy = false) (sl : Bool) (draw : Level) :
    tick sl draw b = { b with settle := saturatingSucc b.settle } := by
  obtain ⟨hfree, hsst⟩ := b.busy_eq_false.mp h
  rw [tick_eq_of_action (tickAction_free hfree _), tickSampler_idle hsst, settleTick_keep rfl]

/-- Settles O18: the rule by `tickAction`'s equations, `SETTLE` by `settleTick`, the frames by what each tick leaves
unchanged. -/
theorem tickFollowsTheOrder : Obligations.TickFollowsTheOrder := by
  intro b sl draw
  refine ⟨?rule, ?switched, ?kept, ?free, ?transaction, ?sampler, ⟨tick_rej sl draw b, tick_timing sl draw b⟩,
    ?inputs⟩
  case rule =>
    exact ⟨fun hst => tick_eq_of_action (tickAction_hostStart hst _),
      fun hst hp => tick_eq_of_action (tickAction_ackDelay hst hp _),
      fun hst hp => tick_eq_of_action (tickAction_ackPoll hst hp _),
      fun hst hp => tick_eq_of_action (tickAction_readyLow hst hp _),
      fun hst hp => tick_eq_of_action (tickAction_readyHigh hst hp _),
      fun hst hp => tick_eq_of_action (tickAction_bitLow hst hp _),
      fun hst hp => tick_eq_of_action (tickAction_bitHigh hst hp _),
      fun hst => tick_eq_of_action (tickAction_validating hst _),
      fun hf hs => tick_eq_of_action ((tickAction_free hf _).trans (tickSampler_sample hs _)),
      fun hf hs => tick_eq_of_action ((tickAction_free hf _).trans (tickSampler_measure hs _)),
      fun hf hs => tick_eq_of_action ((tickAction_free hf _).trans (tickSampler_sleep hs _)),
      fun hf hs => tick_eq_of_action ((tickAction_free hf _).trans (tickSampler_idle hs _))⟩
  case switched =>
    intro h
    rw [tick, tickOn, settleTick_dir] at h
    rw [tick, tickOn, settleTick_settle, if_neg h]
  case kept =>
    intro h
    rw [tick, tickOn, settleTick_dir] at h
    rw [tick, tickOn, settleTick_settle, if_pos h, saturatingSucc_toNat]
  case free => exact fun h => ⟨_, tick_free h sl draw⟩
  case transaction =>
    intro h
    simpa [tick, tickOn] using (transactionStep_tickAction h _).sampler_unchanged
  case sampler =>
    intro h
    obtain ⟨hst, hp, hbits, hframe, herr, hvalid, hhum, htemp⟩ :=
      Block.protocolView_inj.mp (tick_protocolView_of_free h sl draw)
    have hdir : (tick sl draw b).dir = b.dir := by
      simp [tick, tickOn, tickAction_dir (Protocol.ne_of_not_busy h).1]
    exact ⟨hst, hp, hbits, hframe, herr, hvalid, hhum, htemp, hdir⟩
  case inputs =>
    intro sl' draw' h
    rw [tick, tick, tickOn, tickOn, tickAction_eq_of_not_sampling h]

end Sys2Proof.Machine
end

section
/-! Where the result registers and `PULSE` change (10_state.md R20, R21). -/

namespace Sys2Proof.Machine

theorem tick_pulse_of_busy {b : Block} (h : b.st.busy = true) (sl : Bool) (draw : Level) :
    (tick sl draw b).pulse = b.pulse := by
  obtain ⟨-, -, -, hpulse⟩ := (transactionStep_tickAction h (sample sl draw b)).sampler_unchanged
  simpa [tick, tickOn] using hpulse

/-- Settles O44: no acceptance and no tick of a transaction writes `PULSE`, so a change outside Reset is a completion by
the sampler. -/
theorem pulseChangesOnlyAtCompletion : Obligations.PulseChangesOnlyAtCompletion := by
  intro s t hstep hne
  obtain ⟨sl, draw, hblk, -⟩ | ⟨hreset, -⟩ | ⟨-, -, hblk⟩ | ⟨-, -, -, hblk | hblk⟩ | ⟨-, i, -, -, -, hblk⟩ |
    ⟨n, v, -, -, -, hblk⟩ := step_cases hstep
  · right
    rw [hblk] at hne ⊢
    cases hb : s.blk.st.busy with
    | true => exact absurd (tick_pulse_of_busy hb sl draw) hne
    | false =>
      rw [tick_eq_of_action (tickAction_free hb _)] at hne ⊢
      rw [settleTick_pulse] at hne
      simp only [settleTick_pulse, settleTick_sst]
      obtain hsame | ⟨hsst, ht⟩ | ⟨hsst, hidle, hlvls⟩ := tickSampler_pulse_cases (sample sl draw s.blk) s.blk
      · exact absurd hsame hne
      · rw [ht]
        exact ⟨trivial, rfl, .inl ⟨hsst, rfl, rfl, rfl⟩⟩
      · exact ⟨trivial, hidle, .inr ⟨hsst, hlvls⟩⟩
  · exact .inl hreset
  all_goals simp [hblk] at hne

/-- What a tick does to the reading. -/
theorem tick_reading_cases (sl : Bool) (draw : Level) (b : Block) :
    ((tick sl draw b).valid = b.valid ∧ (tick sl draw b).humX10 = b.humX10 ∧ (tick sl draw b).tempX10 = b.tempX10) ∨
    (b.st = .validating ∧ (tick sl draw b).st = .done) := by
  cases hb : b.st.busy with
  | true => simpa [tick, tickOn] using (transactionStep_tickAction hb (sample sl draw b)).reading_cases
  | false =>
    obtain ⟨-, -, -, -, -, hvalid, hhum, htemp⟩ := Block.protocolView_inj.mp (tick_protocolView_of_free hb sl draw)
    exact .inl ⟨hvalid, hhum, htemp⟩

/-- What a tick does to `ERR`. -/
theorem tick_err_cases (sl : Bool) (draw : Level) (b : Block) :
    (tick sl draw b).err = b.err ∨ (b.st.busy = true ∧ (tick sl draw b).st = .failed) := by
  cases hb : b.st.busy with
  | true => simpa [tick, tickOn] using (transactionStep_tickAction hb (sample sl draw b)).err_cases
  | false =>
    obtain ⟨-, -, -, -, herr, -⟩ := Block.protocolView_inj.mp (tick_protocolView_of_free hb sl draw)
    exact .inl herr

/-- `b'` shows the results `b` shows. -/
def Block.SameResults (b b' : Block) : Prop :=
  b'.valid = b.valid ∧ b'.humX10 = b.humX10 ∧ b'.tempX10 = b.tempX10 ∧ b'.err = b.err

theorem sameResults_of_protocolView {b b' : Block} (h : b'.protocolView = b.protocolView) : b.SameResults b' := by
  obtain ⟨-, -, -, -, herr, hvalid, hhum, htemp⟩ := Block.protocolView_inj.mp h
  exact ⟨hvalid, hhum, htemp, herr⟩

/-- What a step other than Reset does to the results: what a tick does, the clearing by an accepted `READ`, or
nothing. -/
theorem step_results_cases {s t : State} (h : step s = .next t) (hreset : s.schedule.head? ≠ some .reset) :
    (∃ sl draw, t.blk = tick sl draw s.blk) ∨ t.blk = s.blk.startRead ∨ s.blk.SameResults t.blk := by
  obtain ⟨sl, draw, hblk, -⟩ | ⟨h, -⟩ | ⟨-, -, hblk⟩ | ⟨-, -, -, hblk | hblk⟩ | ⟨-, i, -, -, -, hblk⟩ |
    ⟨n, v, -, -, -, hblk⟩ := step_cases h
  · exact .inl ⟨sl, draw, hblk⟩
  · exact absurd h hreset
  · exact .inr (.inr (sameResults_of_protocolView (hblk ▸ rfl)))
  · exact .inr (.inr (sameResults_of_protocolView (hblk ▸ rfl)))
  · exact .inr (.inr (sameResults_of_protocolView (hblk ▸ rfl)))
  · right
    by_cases hi : i = .read
    · subst hi
      exact .inl hblk
    · exact .inr (sameResults_of_protocolView (hblk ▸ acceptance_protocolView hi s.blk))
  · exact .inr (.inr (sameResults_of_protocolView (hblk ▸ rfl)))

/-- Settles O45: a tick changes the reading only into Done and `ERR` only into Failed, and an accepted `READ` clears
both. -/
theorem resultsChangeOnlyAtStartAndEnd : Obligations.ResultsChangeOnlyAtStartAndEnd := by
  intro s t hstep hreset
  obtain ⟨sl, draw, hblk⟩ | hblk | ⟨hvalid, hhum, htemp, herr⟩ := step_results_cases hstep hreset
  · rw [hblk]
    constructor
    · intro hne
      obtain ⟨hvalid, hhum, htemp⟩ | hdone := tick_reading_cases sl draw s.blk
      · simp [hvalid, hhum, htemp] at hne
      · exact .inr hdone
    · intro hne
      obtain herr | hfailed := tick_err_cases sl draw s.blk
      · exact absurd herr hne
      · exact .inr hfailed
  · simp [hblk]
  · simp [hvalid, hhum, htemp, herr]

end Sys2Proof.Machine
end

section
/-! `STATUS` (10_state.md R32) and the values after Reset (R35). -/

namespace Sys2Proof.Machine

/-- A concatenation as a number. -/
theorem append_toNat {m n : Nat} (x : BitVec m) (y : BitVec n) : (x ++ y).toNat = x.toNat * 2 ^ n + y.toNat := by
  rw [BitVec.toNat_append, Nat.shiftLeft_eq, Nat.mul_comm, ← Nat.two_pow_add_eq_or_of_lt y.isLt]

/-- `STATUS` as the sum of its fields (10_state.md R32). -/
theorem Block.statusWord_toNat (b : Block) : b.statusWord.toNat =
    b.st.code.toNat + 2 ^ 4 * b.ph.toNat + 2 ^ 5 * b.busy.toNat + 2 ^ 6 * b.dir.bit.toNat + 2 ^ 7 * b.valid.toNat +
      2 ^ 8 * b.err.code.toNat + 2 ^ 11 * b.bitcnt.toNat + 2 ^ 17 * b.sst.code.toNat + 2 ^ 19 * b.rej.toNat := by
  simp only [Block.statusWord, append_toNat, BitVec.toNat_ofBool, BitVec.toNat_ofNat]
  omega

/-- A bit of a word by the word as a number. -/
theorem getLsbD_of_toNat {w : Word} {i : Nat} {c : Bool} (h : w.toNat / 2 ^ i % 2 = c.toNat) : w.getLsbD i = c := by
  rw [BitVec.getLsbD, Nat.testBit_eq_decide_div_mod_eq, h]
  cases c <;> rfl

theorem Block.busy_iff (b : Block) : b.busy = true ↔ (b.st = .hostStart ∨ b.st = .waitSensorAck ∨
    b.st = .waitSensorReady ∨ b.st = .readingBits ∨ b.st = .validating) ∨ b.sst ≠ .idle := by
  cases hst : b.st <;> simp [Block.busy, Protocol.busy, hst]

theorem Direction.bit_toNat (d : Direction) : d.bit.toNat = (decide (d = .output)).toNat := by cases d <;> rfl

/-- The fields of `STATUS`. -/
theorem Block.statusWord_fields (b : Block) :
    b.statusWord.toNat % 2 ^ 4 = b.st.code.toNat ∧ b.statusWord.getLsbD 4 = b.ph ∧ b.statusWord.getLsbD 5 = b.busy ∧
    b.statusWord.getLsbD 6 = decide (b.dir = .output) ∧ b.statusWord.getLsbD 7 = b.valid ∧
    b.statusWord.toNat / 2 ^ 8 % 2 ^ 3 = b.err.code.toNat ∧ b.statusWord.toNat / 2 ^ 11 % 2 ^ 6 = b.bitcnt.toNat ∧
    b.statusWord.toNat / 2 ^ 17 % 2 ^ 2 = b.sst.code.toNat ∧ b.statusWord.getLsbD 19 = b.rej ∧
    b.statusWord.toNat < 2 ^ 20 := by
  have hsum := b.statusWord_toNat
  rw [Direction.bit_toNat] at hsum
  have := b.st.code.isLt
  have := b.ph.toNat_le
  have := b.busy.toNat_le
  have := (decide (b.dir = .output)).toNat_le
  have := b.valid.toNat_le
  have := b.err.code.isLt
  have := b.bitcnt.isLt
  have := b.sst.code.isLt
  have := b.rej.toNat_le
  refine ⟨?_, getLsbD_of_toNat ?_, getLsbD_of_toNat ?_, getLsbD_of_toNat ?_, getLsbD_of_toNat ?_, ?_, ?_, ?_,
    getLsbD_of_toNat ?_, ?_⟩ <;> omega

theorem Block.statusWord_reset : Block.reset.statusWord = 0 := by decide

theorem hostWrite_status (v : Word) (s : State) : hostWrite 1 v s = .next s := rfl

/-- Settles O10, the fields by `STATUS` as a sum. -/
theorem statusShowsTheState : Obligations.StatusShowsTheState := by
  refine ⟨fun s rest => ⟨?read, ?write⟩, fun b => ?fields⟩
  case read =>
    intro h
    rw [step_of_schedule_cons h]
    rfl
  case write =>
    intro v h
    rw [step_of_schedule_cons h, perform_hostWrite, hostWrite_status]
  case fields =>
    obtain ⟨hst, hph, hbusy, hdir, hvalid, herr, hbits, hsst, hrej, hbound⟩ := b.statusWord_fields
    refine ⟨?_, hph, ?_, ?_, hvalid, ?_, hbits, ?_, hrej, hbound⟩
    · exact hst.trans (by cases b.st <;> rfl)
    · rw [hbusy, b.busy_iff]
    · rw [hdir, decide_eq_true_iff]
    · exact herr.trans (by cases b.err <;> rfl)
    · exact hsst.trans (by cases b.sst <;> rfl)

/-- Settles O14: a scheduled Reset is performed by `perform_reset`, and the reset block is the table of R35. -/
theorem resetSetsEveryRegister : Obligations.ResetSetsEveryRegister := by
  refine ⟨fun s rest h => ?_, fun s t h hstep => ?_⟩
  · rw [step_of_schedule_cons h]
    rfl
  · obtain ⟨rest, hs⟩ := List.head?_eq_some_iff.mp h
    rw [step_of_schedule_cons hs, perform_reset] at hstep
    cases hstep
    exact ⟨rfl, Block.statusWord_reset, rfl, rfl, rfl⟩

end Sys2Proof.Machine
end

section
/-! The register file: what `HostRead` answers and what `HostWrite` does, one lemma for each kind of register
(20_memory.md R42, R43, R45). -/

namespace Sys2Proof.Machine

/-- Settles O8: every operation is its acceptance, and a busy block refuses every acceptance. -/
theorem busyBlockDropsEveryCommand : Obligations.BusyBlockDropsEveryCommand := by
  intro i s hb
  rw [exec_eq_whenFree, whenFree_busy hb]
  rfl

/-! What `HostRead` answers, as a number. -/

theorem Block.readReg_humidity_toNat (b : Block) : (b.readReg 2).toNat = b.humX10.toNat :=
  BitVec.toNat_setWidth_of_le (by decide)

theorem Block.readReg_temperature_toNat (b : Block) : (b.readReg 3).toNat = b.tempX10.toNat :=
  BitVec.toNat_setWidth_of_le (by decide)

theorem Block.readReg_frameLow_toNat (b : Block) : (b.readReg 4).toNat = b.frame.toNat % 2 ^ 32 :=
  BitVec.extractLsb'_toNat 0 32 b.frame

theorem Block.readReg_frameHigh_toNat (b : Block) : (b.readReg 5).toNat = b.frame.toNat / 2 ^ 32 := by
  have hframe := b.frame.isLt
  calc (b.readReg 5).toNat
      = (b.frame.extractLsb' 32 8).toNat := BitVec.toNat_setWidth_of_le (by decide)
    _ = b.frame.toNat / 2 ^ 32 % 2 ^ 8 := by rw [BitVec.extractLsb'_toNat, Nat.shiftRight_eq_div_pow]
    _ = b.frame.toNat / 2 ^ 32 := by omega

theorem Block.readReg_of_timing {n : RegNum} (hn : 8 ≤ n.toNat) (b : Block) :
    b.readReg n = (b.timing.read n).setWidth 32 := by
  unfold Block.readReg
  split
  case h_9 => rfl
  all_goals omega

theorem Block.readReg_timing_toNat {n : RegNum} (hn : 8 ≤ n.toNat) (b : Block) :
    (b.readReg n).toNat = (b.timing.read n).toNat := by
  rw [b.readReg_of_timing hn, BitVec.toNat_setWidth_of_le (by decide)]

/-- Settles O9: the step answers `readReg n`, whose value is given number by number. -/
theorem hostReadReturnsTheRegister : Obligations.HostReadReturnsTheRegister := by
  intro s n rest hs
  refine ⟨s.blk.readReg n, by rw [step_of_schedule_cons hs, perform_hostRead], ?_⟩
  refine ⟨?r0, ?r1, ?r2, ?r3, ?r4, ?r5, ?r6, ?r7, ?r8, ?r9, ?r10, ?r11, ?r12, ?r13, ?r14, ?r15⟩ <;> rintro rfl
  case r0 | r1 | r6 | r7 => rfl
  case r2 => exact s.blk.readReg_humidity_toNat
  case r3 => exact s.blk.readReg_temperature_toNat
  case r4 => exact s.blk.readReg_frameLow_toNat
  case r5 => exact s.blk.readReg_frameHigh_toNat
  all_goals exact s.blk.readReg_timing_toNat (by decide)

/-! What `HostWrite` does, by the register and `busy()`. -/

theorem RegNum.ne_zero {n : RegNum} (h : 1 ≤ n.toNat) : n ≠ 0 := by
  rintro rfl
  simp at h

section
variable {n : RegNum} {s : State}

theorem hostWrite_busy (hn : n = 0 ∨ 8 ≤ n.toNat) (hb : s.blk.busy = true) (v : Word) :
    hostWrite n v s = .next (s.onBlock Block.reject) := by
  obtain rfl | hn := hn
  · rw [hostWrite, if_pos rfl, if_pos hb]
  · rw [hostWrite, if_neg (RegNum.ne_zero (by omega)), if_pos hn, if_pos hb]

theorem hostWrite_command_free (hb : s.blk.busy = false) (v : Word) : hostWrite 0 v s = issue v s := by
  rw [hostWrite, if_pos rfl, if_neg (by simp [hb])]

theorem hostWrite_timing_free (hn : 8 ≤ n.toNat) (hb : s.blk.busy = false) (v : Word) :
    hostWrite n v s = .next (s.onBlock (Block.writeTiming n v)) := by
  rw [hostWrite, if_neg (RegNum.ne_zero (by omega)), if_pos hn, if_neg (by simp [hb])]

theorem hostWrite_readOnly (h1 : 1 ≤ n.toNat) (h7 : n.toNat ≤ 7) (v : Word) : hostWrite n v s = .next s := by
  rw [hostWrite, if_neg (RegNum.ne_zero h1), if_neg (by omega)]

end

/-- While busy, a scheduled write to `CMD` or to a timing register sets `REJ` alone (20_memory.md R45). -/
theorem step_hostWrite_busy {s : State} {n : RegNum} {v : Word} {rest : List RunStep}
    (hs : s.schedule = .hostWrite n v :: rest) (hn : n = 0 ∨ 8 ≤ n.toNat) (hb : s.blk.busy = true) :
    step s = .next { s with schedule := rest, blk := { s.blk with rej := true } } := by
  rw [step_of_schedule_cons hs, perform_hostWrite, hostWrite_busy (s := { s with schedule := rest }) hn hb]
  rfl

/-- Settles O12, by the register written and `busy()`; the written timing registers are read back by number. -/
theorem hostWriteFollowsTheRule : Obligations.HostWriteFollowsTheRule := by
  intro s n v rest hs
  refine ⟨fun hn hb => step_hostWrite_busy hs (.inl hn) hb, ?command, fun hn hb => step_hostWrite_busy hs (.inr hn) hb,
    ?timing, ?readOnly⟩ <;> rw [step_of_schedule_cons hs, perform_hostWrite]
  case command =>
    rintro rfl hb
    exact hostWrite_command_free (s := { s with schedule := rest }) hb v
  case timing =>
    intro hn hb
    refine ⟨s.blk.timing.write n (v.extractLsb' 0 24),
      hostWrite_timing_free (s := { s with schedule := rest }) hn hb v, ?_,
      fun m hm => Timing.read_write_other n m hm _ _⟩
    rw [Timing.read_write_same n hn]
    exact BitVec.extractLsb'_toNat 0 24 v
  case readOnly => exact fun h1 h7 => hostWrite_readOnly h1 h7 v

/-! `REJ` and the timing registers over a step. -/

@[simp] theorem acceptance_rej (i : Instr) (b : Block) : (acceptance i b).rej = b.rej := by
  cases i <;> simp [acceptance]

/-- Settles O13: no tick writes a timing register or `REJ`, no acceptance writes `REJ`, and a busy block accepts
neither an operation nor a timing value. -/
theorem busyWritesAreDroppedAndRejIsSticky : Obligations.BusyWritesAreDroppedAndRejIsSticky := by
  refine ⟨fun s n v rest hs hb hn => step_hostWrite_busy hs hn hb, ?timing, ?sticky⟩
  case timing =>
    intro s t hstep hreset hb
    obtain ⟨sl, draw, hblk, -⟩ | ⟨h, -⟩ | ⟨-, -, hblk⟩ | ⟨-, -, -, hblk | hblk⟩ | ⟨-, -, -, -, hfree, -⟩ |
      ⟨-, -, -, -, hfree, -⟩ := step_cases hstep
    · rw [hblk, tick_timing]
    · exact absurd h hreset
    · rw [hblk]
    · rw [hblk]
    · rw [hblk, Block.reject_timing]
    · simp [hb] at hfree
    · simp [hb] at hfree
  case sticky =>
    intro s t hstep hreset hrej
    obtain ⟨sl, draw, hblk, -⟩ | ⟨h, -⟩ | ⟨-, -, hblk⟩ | ⟨-, -, -, hblk | hblk⟩ | ⟨-, i, -, -, -, hblk⟩ |
      ⟨n, v, -, -, -, hblk⟩ := step_cases hstep
    · rw [hblk, tick_rej, hrej]
    · exact absurd h hreset
    · rw [hblk, hrej]
    · rw [hblk, hrej]
    · rw [hblk, Block.reject_rej]
    · rw [hblk, acceptance_rej, hrej]
    · rw [hblk, Block.writeTiming_rej, hrej]

end Sys2Proof.Machine
end

section
/-! The decoder: which words name an operation, by their fields (30_encoding.md R61, R62, R64), and the encoder as its
inverse (R69). -/

namespace Sys2Proof

/-- The operands of an operation stand in their fields of the word: `LVL` and `ARG` (30_encoding.md R62). -/
def Instr.OperandsIn (w : Word) : Instr → Prop
  | .measurePulse lvl timeoutUs => fieldLvl w = lvl.bit ∧ fieldArg w = timeoutUs
  | .sleepUs durationUs => fieldArg w = durationUs
  | .release | .driveLow | .readLevel | .read => True

theorem fieldOp_eq_of_toNat {w : Word} {n : Nat} (h : (fieldOp w).toNat = n) : fieldOp w = BitVec.ofNat 4 n := by
  rw [← h, BitVec.ofNat_toNat, BitVec.setWidth_eq]

/-- A word names an operation exactly when it passes both checks of R64, carries the operation's code, and the
operands stand in their fields. -/
theorem decode_eq_ok_iff {w : Word} {i : Instr} :
    decode w = .ok i ↔ fieldRsv w = 0 ∧ fieldOp w = i.opCode ∧ i.OperandsIn w := by
  constructor
  · intro h
    unfold decode at h
    split at h
    case isFalse => cases h
    case isTrue hrsv =>
      split at h
      case h_7 => cases h
      all_goals
        next hop =>
        cases h
        exact ⟨hrsv, fieldOp_eq_of_toNat hop, by simp [Instr.OperandsIn]⟩
  · rintro ⟨hrsv, hop, hargs⟩
    cases i with
    | measurePulse lvl timeoutUs =>
      obtain ⟨hlvl, harg⟩ := hargs
      simp [decode, hrsv, hop, Instr.opCode, hlvl, harg]
    | sleepUs durationUs =>
      have harg : fieldArg w = durationUs := hargs
      simp [decode, hrsv, hop, Instr.opCode, harg]
    | release | driveLow | readLevel | read => simp [decode, hrsv, hop, Instr.opCode]

/-- A word is refused exactly when it fails one of the checks of R64. -/
theorem exists_decode_eq_error_iff {w : Word} : (∃ e, decode w = .error e) ↔ wordLegal w = false := by
  rw [← Bool.not_eq_true, wordLegal_iff]
  unfold decode
  split
  case isFalse hrsv => exact iff_of_true ⟨_, rfl⟩ fun hlegal => hrsv hlegal.2
  case isTrue hrsv =>
    split
    case h_7 =>
      refine iff_of_true ⟨_, rfl⟩ ?_
      rintro ⟨⟨h1, h6⟩, -⟩
      interval_cases (fieldOp w).toNat <;> contradiction
    all_goals
      next hop => exact iff_of_false (fun ⟨e, he⟩ => by cases he) (by simp [hrsv, hop])

/-! The encoder. -/

/-- The encoder's word of every operation carries its code and passes both checks of R64. -/
theorem tableRow_statement (i : Instr) : Laws.TableRow.Statement i := by
  cases i with
  | release => exact Laws.TableRow.release
  | driveLow => exact Laws.TableRow.driveLow
  | readLevel => exact Laws.TableRow.readLevel
  | measurePulse lvl timeoutUs => exact Laws.TableRow.measurePulse lvl timeoutUs
  | sleepUs durationUs => exact Laws.TableRow.sleepUs durationUs
  | read => exact Laws.TableRow.read

theorem wordLegal_encode (i : Instr) : wordLegal (encode i) = true := by
  obtain ⟨-, -, hlegal⟩ := tableRow_statement i
  exact hlegal

theorem operandsIn_encode (i : Instr) : i.OperandsIn (encode i) := by
  cases i <;> simp [Instr.OperandsIn, encode]

@[simp] theorem decode_encode (i : Instr) : decode (encode i) = .ok i := by
  obtain ⟨hop, hrsv, -⟩ := tableRow_statement i
  exact decode_eq_ok_iff.mpr ⟨hrsv, hop, operandsIn_encode i⟩

/-- Settles O2: the encoder's word has the fields of `decode_eq_ok_iff`, and a word that decodes is the sum of its
fields, those of its operation fixed by `decode_eq_ok_iff`. -/
theorem decodeAndEncodeAgree : Obligations.DecodeAndEncodeAgree := by
  refine ⟨fun i => ⟨decode_encode i, wordLegal_encode i⟩, fun w i h => ?_⟩
  obtain ⟨hrsv, hop, hargs⟩ := decode_eq_ok_iff.mp h
  cases i with
  | measurePulse lvl timeoutUs =>
    obtain ⟨hlvl, harg⟩ := hargs
    exact congrArg BitVec.toNat (commandWord_eq_of_fields hop hlvl hrsv harg).symm
  | sleepUs durationUs =>
    have harg : fieldArg w = durationUs := hargs
    calc (encode (.sleepUs durationUs)).toNat
        = 5 + 256 * durationUs.toNat := commandWord_toNat 5 .low durationUs
      _ = (fieldOp w).toNat + 256 * (fieldArg w).toNat := by rw [hop, harg]; rfl
      _ = 256 * (w.toNat / 256) + w.toNat % 16 := by rw [fieldOp_toNat, fieldArg_toNat, Nat.add_comm]
  | release | driveLow | readLevel | read =>
    simp only [encode, commandWord_toNat, ← fieldOp_toNat, hop]
    rfl

end Sys2Proof
end

section
/-! The opcode map's match and mask (30_encoding.md R62), and the fields the decoder reads (R64). -/

namespace Sys2Proof

/-- A word from its four fields. -/
theorem word_eq_append_fields (w : Word) : w = fieldArg w ++ fieldRsv w ++ fieldLvl w ++ fieldOp w := by
  simp only [fieldArg, fieldRsv, fieldLvl, fieldOp]
  rw [BitVec.extractLsb'_append_extractLsb'_eq_extractLsb' (by rfl),
    BitVec.extractLsb'_append_extractLsb'_eq_extractLsb' (by rfl),
    BitVec.extractLsb'_append_extractLsb'_eq_extractLsb' (by rfl), BitVec.extractLsb'_eq_self]

/-- The mask of the opcode map keeps `OP` and `RSV` and clears the other two fields. -/
theorem and_opcodeMask (w : Word) : w &&& 0x000000EF = 0#24 ++ fieldRsv w ++ 0#1 ++ fieldOp w := by
  have hmask : (0x000000EF : Word) = 0#24 ++ BitVec.allOnes 3 ++ 0#1 ++ BitVec.allOnes 4 := by decide
  calc w &&& 0x000000EF
      = (fieldArg w ++ fieldRsv w ++ fieldLvl w ++ fieldOp w) &&&
          (0#24 ++ BitVec.allOnes 3 ++ 0#1 ++ BitVec.allOnes 4) := by rw [← word_eq_append_fields, hmask]
    _ = (fieldArg w &&& 0#24) ++ (fieldRsv w &&& BitVec.allOnes 3) ++ (fieldLvl w &&& 0#1) ++
          (fieldOp w &&& BitVec.allOnes 4) := by simp only [BitVec.and_append]
    _ = 0#24 ++ fieldRsv w ++ 0#1 ++ fieldOp w := by simp only [BitVec.and_allOnes, BitVec.and_zero]

theorem and_opcodeMask_toNat (w : Word) :
    (w &&& 0x000000EF).toNat = 32 * (fieldRsv w).toNat + (fieldOp w).toNat := by
  rw [and_opcodeMask]
  simp only [Machine.append_toNat, BitVec.toNat_ofNat]
  omega

/-- The row of code `op` is selected by `RSV = 0` and `OP = op`. -/
theorem and_opcodeMask_eq_iff (w : Word) (op : BitVec 4) :
    w &&& 0x000000EF = op.setWidth 32 ↔ fieldRsv w = 0 ∧ fieldOp w = op := by
  have := (fieldOp w).isLt
  have := op.isLt
  rw [← BitVec.toNat_inj, and_opcodeMask_toNat, BitVec.toNat_setWidth_of_le (by decide), ← BitVec.toNat_inj,
    ← BitVec.toNat_inj, show (0 : BitVec 3).toNat = 0 from rfl]
  omega

theorem decode_eq_ok_iff_selects {w : Word} {i : Instr} :
    decode w = .ok i ↔ w &&& 0x000000EF = i.opCode.setWidth 32 ∧ i.OperandsIn w := by
  rw [decode_eq_ok_iff, and_opcodeMask_eq_iff, and_assoc]

theorem fieldLvl_eq_bit_iff (w : Word) (l : Level) : fieldLvl w = l.bit ↔ (l = .high ↔ w.getLsbD 4 = true) := by
  have hbit : (fieldLvl w).getLsbD 0 = w.getLsbD 4 := by simp [fieldLvl]
  rw [← hbit]
  obtain h | h := BitVec.eq_zero_or_eq_one (fieldLvl w) <;> cases l <;> simp [h, Level.bit]

theorem fieldArg_eq_iff (w : Word) (a : Count) : fieldArg w = a ↔ a.toNat = w.toNat / 256 := by
  rw [← fieldArg_toNat, BitVec.toNat_inj, eq_comm]

/-- Settles O3: each row by `decode_eq_ok_iff_selects`. -/
theorem opcodeMapSelectsByMatchAndMask : Obligations.OpcodeMapSelectsByMatchAndMask := by
  intro w
  refine ⟨?release, ?driveLow, ?readLevel, fun l a => ?measurePulse, fun d => ?sleepUs, ?read⟩ <;>
    rw [decode_eq_ok_iff_selects]
  case measurePulse => exact and_congr_right' (and_congr (fieldLvl_eq_bit_iff w l) (fieldArg_eq_iff w a))
  case sleepUs => exact and_congr_right' (fieldArg_eq_iff w d)
  case release | driveLow | readLevel | read => exact and_iff_left trivial

theorem wordLegal_eq_false_iff (w : Word) : wordLegal w = false ↔
    (w.toNat % 16 = 0 ∨ 7 ≤ w.toNat % 16) ∨ w.toNat / 32 % 8 ≠ 0 := by
  simp only [wordLegal, opLegal, rsvLegal, Bool.and_eq_false_iff, decide_eq_false_iff_not, beq_eq_false_iff_ne]
  omega

/-- The decoder reads `LVL` of `MEASURE_PULSE` and `ARG` of the two operations that have an operand, and no other field
but `OP` and `RSV`. -/
theorem decode_congr {w v : Word} (hop : fieldOp w = fieldOp v) (hrsv : fieldRsv w = fieldRsv v)
    (hpulse : (fieldOp w).toNat = 4 → w = v) (hsleep : (fieldOp w).toNat = 5 → fieldArg w = fieldArg v) :
    decode w = decode v := by
  unfold decode
  rw [← hop, ← hrsv]
  split
  case isFalse => rfl
  case isTrue =>
    split
    case h_4 h => rw [hpulse h]
    case h_5 h => rw [hsleep h]
    all_goals rfl

end Sys2Proof
end

section
/-! A write to `CMD` (30_encoding.md R61, R64; 20_memory.md R43, R45). -/

namespace Sys2Proof.Machine

theorem issue_illegal {w : Word} {e : DecodeError} (h : decode w = .error e) (s : State) :
    issue w s = .next (s.onBlock Block.reject) := by
  simp only [issue, h]

theorem issue_legal {v : Word} {i : Instr} (h : decode v = .ok i) (s : State) : issue v s = exec i s := by
  simp only [issue, h]

/-- Settles O4: the two checks of R64 by `exists_decode_eq_error_iff`, the refused write by `issue_illegal`, the ignored
fields by `decode_congr`. -/
theorem illegalWordsOnlySetRej : Obligations.IllegalWordsOnlySetRej := by
  refine ⟨fun w => exists_decode_eq_error_iff.trans (wordLegal_eq_false_iff w),
    fun w => exists_decode_eq_error_iff, ?write, ?ignored⟩
  case write =>
    intro s w rest e hs hb he
    rw [step_of_schedule_cons hs, perform_hostWrite, hostWrite_command_free (s := { s with schedule := rest }) hb,
      issue_illegal he]
    rfl
  case ignored =>
    intro w v hop hrsv hpulse hsleep
    rw [← fieldOp_toNat] at hpulse hsleep
    rw [← fieldOp_toNat, ← fieldOp_toNat, BitVec.toNat_inj] at hop
    rw [← fieldRsv_toNat, ← fieldRsv_toNat, BitVec.toNat_inj] at hrsv
    rw [← fieldArg_toNat, ← fieldArg_toNat, BitVec.toNat_inj] at hsleep
    exact decode_congr hop hrsv hpulse hsleep

/-- On a free block the write issues the operation; on a busy one it is refused, as `exec` refuses it. -/
theorem hostWrite_command_legal {v : Word} {i : Instr} (h : decode v = .ok i) (s : State) :
    hostWrite 0 v s = exec i s := by
  cases hb : s.blk.busy with
  | false => rw [hostWrite_command_free hb, issue_legal h]
  | true => rw [hostWrite_busy (.inl rfl) hb, exec_eq_whenFree, whenFree_busy hb]

theorem step_command_legal {s : State} {v : Word} {rest : List RunStep} {i : Instr}
    (hs : s.schedule = .hostWrite 0 v :: rest) (h : decode v = .ok i) :
    step s = exec i { s with schedule := rest } := by
  rw [step_of_schedule_cons hs, perform_hostWrite, hostWrite_command_legal h]

/-- Settles O5: the laid word is the encoder's, which decodes to its operation. -/
theorem stepRunsTheDecodedCommand : Obligations.StepRunsTheDecodedCommand := by
  refine ⟨fun s v rest i hs h => step_command_legal hs h, fun s i => ?_⟩
  exact step_command_legal (s := s.withFetchWord 32 (encode i).toNat) rfl (by rw [tableWord_toNat, decode_encode])

end Sys2Proof.Machine
end

section
/-! The order of the bits of a frame (10_state.md R18; 30_encoding.md R66). -/

namespace Sys2Proof.Machine

theorem shiftIn_getLsbD_zero (f : RawFrame) (c : Bool) : (shiftIn f c).getLsbD 0 = c := by
  rw [shiftIn, BitVec.getLsbD_append, if_pos (by decide), BitVec.getLsbD_ofBool]
  simp

theorem shiftIn_getLsbD_succ (f : RawFrame) (c : Bool) {k : Nat} (hk : k + 1 < 40) :
    (shiftIn f c).getLsbD (k + 1) = f.getLsbD k := by
  have hk39 : k < 39 := by omega
  rw [shiftIn, BitVec.getLsbD_append, if_neg (by omega), BitVec.getLsbD_extractLsb']
  simp [hk39]

/-- Shifted into an empty frame, the last bit to arrive is at `FRAME[0]`, the one before it at `FRAME[1]`, and so
on. -/
theorem foldl_shiftIn_getLsbD (bits : List Bool) {k : Nat} (hk : k < 40) :
    (bits.foldl shiftIn 0).getLsbD k = bits.reverse.getD k false := by
  induction bits using List.reverseRecOn generalizing k with
  | nil => simp
  | append_singleton bits c ih =>
    rw [List.foldl_append, List.foldl_cons, List.foldl_nil, List.reverse_append, List.reverse_singleton,
      List.singleton_append]
    cases k with
    | zero => rw [shiftIn_getLsbD_zero, List.getD_cons_zero]
    | succ k => rw [shiftIn_getLsbD_succ _ _ hk, ih (by omega), List.getD_cons_succ]

/-- Of 40 bits the `i`-th to arrive is at `FRAME[39 - i]`. -/
theorem foldl_shiftIn_getLsbD_of_length {bits : List Bool} (hlen : bits.length = 40) {i : Nat} (hi : i < 40) :
    (bits.foldl shiftIn 0).getLsbD (39 - i) = bits.getD i false := by
  rw [foldl_shiftIn_getLsbD bits (by omega), List.getD_eq_getElem?_getD, List.getElem?_reverse (by omega),
    List.getD_eq_getElem?_getD, hlen]
  congr 2
  omega

/-- The `i`-th bit to arrive is bit `7 - j` of the byte that starts at `FRAME[lo]`, where that bit is
`FRAME[39 - i]`. -/
theorem foldl_shiftIn_byte_getLsbD {bits : List Bool} (hlen : bits.length = 40) {lo i j : Nat} (hj : j < 8)
    (hpos : lo + 7 + i = 39 + j) :
    ((bits.foldl shiftIn 0).extractLsb' lo 8).getLsbD (7 - j) = bits.getD i false := by
  have hj8 : 7 - j < 8 := by omega
  have hlo : lo + (7 - j) = 39 - i := by omega
  rw [BitVec.getLsbD_extractLsb', hlo, foldl_shiftIn_getLsbD_of_length hlen (by omega)]
  simp [hj8]

/-- Settles O36: the five bytes start at `FRAME[32]`, `FRAME[24]`, `FRAME[16]`, `FRAME[8]` and `FRAME[0]`. -/
theorem firstBitEndsAtTheTopOfTheFrame : Obligations.FirstBitEndsAtTheTopOfTheFrame := by
  intro bits hlen
  refine ⟨fun i hi => foldl_shiftIn_getLsbD_of_length hlen hi, fun j hj => ⟨?_, ?_, ?_, ?_, ?_⟩⟩ <;>
    exact foldl_shiftIn_byte_getLsbD hlen hj (by omega)

end Sys2Proof.Machine
end

section
/-! The line operations (41_line_ops.md R80 to R82): what each does to a free block, and the wire under `DRIVE_LOW`. -/

namespace Sys2Proof.Machine

/-! The acceptance of an operation. -/

theorem exec_free {s : State} (h : s.blk.busy = false) (i : Instr) : exec i s = .next (s.onBlock (acceptance i)) := by
  rw [exec_eq_whenFree, whenFree_free h]

theorem exec_cases {i : Instr} {s t : State} (h : exec i s = .next t) :
    (s.blk.busy = true ∧ t = s.onBlock Block.reject) ∨ (s.blk.busy = false ∧ t = s.onBlock (acceptance i)) :=
  whenFree_cases (exec_eq_whenFree i s ▸ h)

/-- There are two directions. -/
theorem Direction.eq_of_ne_of_ne {c d e : Direction} (hd : d ≠ c) (he : e ≠ c) : d = e := by
  cases c <;> cases d <;> cases e <;> trivial

/-- `DIR <- d` by the other direction `e`: a switch from `e`, and nothing when `DIR` is `d` already. -/
theorem Block.switchDir_eq_of_ne {d e : Direction} (h : e ≠ d) (b : Block) :
    b.switchDir d = if b.dir = e then { b with dir := d, settle := 0 } else b := by
  unfold Block.switchDir
  split
  · next hd => rw [if_neg (hd ▸ h.symm)]
  · next hd => rw [if_pos (Direction.eq_of_ne_of_ne hd h)]

/-- Settles O19: the acceptance switches `DIR` from Output to Input. -/
theorem releaseSetsDirectionInput : Obligations.ReleaseSetsDirectionInput := by
  refine ⟨rfl, fun s hb => ?_⟩
  rw [exec_free hb, ← Block.switchDir_eq_of_ne (d := .input) (e := .output) nofun]
  rfl

/-- Settles O20: the acceptance switches `DIR` from Input to Output. -/
theorem driveLowSetsDirectionOutput : Obligations.DriveLowSetsDirectionOutput := by
  intro s hb
  rw [exec_free hb, ← Block.switchDir_eq_of_ne (d := .output) (e := .input) nofun]
  rfl

/-- Any number of ticks of a free block changes `SETTLE` alone. -/
theorem ticks_free {b : Block} (h : b.busy = false) (inputs : List TickInput) :
    ∃ c, ticks inputs b = { b with settle := c } := by
  induction inputs generalizing b with
  | nil => exact ⟨b.settle, rfl⟩
  | cons i inputs ih =>
    rw [ticks_cons, tick_free h]
    exact ih (b := { b with settle := saturatingSucc b.settle }) h

/-- Settles O21: `DRIVE_LOW` leaves a free block with `DIR = Output`, whose ticks change `SETTLE` alone, and a driven
line is Low. -/
theorem drivenLineStaysLow : Obligations.DrivenLineStaysLow := by
  intro s t inputs hb hexec
  rw [exec_free hb] at hexec
  cases hexec
  have hfree : (s.blk.switchDir .output).busy = false := by simpa using hb
  obtain ⟨c, hticks⟩ := ticks_free hfree inputs
  have hdir : (ticks inputs (s.blk.switchDir .output)).dir = .output := by
    rw [hticks]
    exact s.blk.switchDir_dir .output
  exact ⟨hdir, fun sl => (Block.wire_eq _ sl).trans (if_pos (.inl hdir)), fun sl draw => sample_output hdir sl draw⟩

/-- Settles O22: the acceptance by `exec_free`, the tick by the rule of `SSample`, which keeps `DIR`. -/
theorem readLevelReturnsTheSample : Obligations.ReadLevelReturnsTheSample := by
  refine ⟨rfl, fun s hb => ⟨exec_free hb .readLevel, Block.busy_of_sst nofun⟩, ?_⟩
  intro b sl draw hsst hfree
  rw [tick_eq_of_action ((tickAction_free hfree _).trans (tickSampler_sample hsst _))]
  exact settleTick_keep rfl

end Sys2Proof.Machine
end

section
/-! Where `DIR` changes (41_line_ops.md R83 (b)), and what the direct operations leave of a transaction (R84). -/

namespace Sys2Proof.Machine

/-- The operations whose acceptance changes `DIR`. -/
theorem acceptance_dir_ne {i : Instr} {b : Block} (h : (acceptance i b).dir ≠ b.dir) :
    i = .release ∨ i = .driveLow ∨ i = .read := by
  cases i with
  | release => exact .inl rfl
  | driveLow => exact .inr (.inl rfl)
  | read => exact .inr (.inr rfl)
  | readLevel | measurePulse | sleepUs => exact absurd rfl h

/-- HostStart switches `DIR` only when its wait is over (43_protocol_read.md R101). -/
theorem tickHostStart_dir_ne {b : Block} (h : (tickHostStart b).dir ≠ b.dir) :
    b.timing.tStart.toNat ≤ b.cnt.toNat + 1 := by
  unfold tickHostStart at h
  split at h
  · next hover => exact (reaches_iff _ _).mp hover
  · exact absurd rfl h

/-- The one tick that changes `DIR` is the last of HostStart. -/
theorem tick_dir_ne {b : Block} {sl : Bool} {draw : Level} (h : (tick sl draw b).dir ≠ b.dir) :
    b.st = .hostStart ∧ b.timing.tStart.toNat ≤ b.cnt.toNat + 1 := by
  rw [tick, tickOn, settleTick_dir] at h
  have hst : b.st = .hostStart := by_contra fun hst => h (tickAction_dir hst)
  rw [tickAction_hostStart hst] at h
  exact ⟨hst, tickHostStart_dir_ne h⟩

/-- Settles O43, by the kinds of step: only a tick, a Reset and an acceptance can change `DIR`. -/
theorem directionChangesOnlyWhereListed : Obligations.DirectionChangesOnlyWhereListed := by
  intro s t hstep hne
  obtain ⟨sl, draw, hblk, hhead⟩ | ⟨hreset, -⟩ | ⟨-, -, hblk⟩ | ⟨-, -, -, hblk | hblk⟩ | ⟨v, i, hhead, hi, hb, hblk⟩ |
    ⟨n, v, -, -, -, hblk⟩ := step_cases hstep
  · rw [hblk] at hne
    exact .inr (.inr ⟨hhead.imp List.head?_eq_none_iff.mp fun hhead => ⟨sl, draw, hhead⟩, tick_dir_ne hne⟩)
  · exact .inl hreset
  · simp [hblk] at hne
  · simp [hblk] at hne
  · simp [hblk] at hne
  · rw [hblk] at hne
    exact .inr (.inl ⟨v, i, hhead, hi, hb, acceptance_dir_ne hne⟩)
  · simp [hblk] at hne

/-- Outside a transaction every step but Reset and the acceptance of a `READ` leaves the transaction and its result. -/
theorem step_protocolView_cases {s t : State} (hfree : s.blk.st.busy = false) (h : step s = .next t) :
    s.schedule.head? = some .reset ∨
    (∃ v, s.schedule.head? = some (.hostWrite 0 v) ∧ decode v = .ok .read) ∨
    t.blk.protocolView = s.blk.protocolView := by
  obtain ⟨sl, draw, hblk, -⟩ | ⟨hreset, -⟩ | ⟨-, -, hblk⟩ | ⟨-, -, -, hblk | hblk⟩ | ⟨v, i, hhead, hi, -, hblk⟩ |
    ⟨n, v, -, -, -, hblk⟩ := step_cases h
  · exact .inr (.inr (hblk ▸ tick_protocolView_of_free hfree sl draw))
  · exact .inl hreset
  · exact .inr (.inr (hblk ▸ rfl))
  · exact .inr (.inr (hblk ▸ rfl))
  · exact .inr (.inr (hblk ▸ rfl))
  · by_cases hread : i = .read
    · exact .inr (.inl ⟨v, hhead, hread ▸ hi⟩)
    · exact .inr (.inr (hblk ▸ acceptance_protocolView hread s.blk))
  · exact .inr (.inr (hblk ▸ rfl))

/-- Settles O42: what an acceptance or a refusal leaves, what a tick outside a transaction leaves, and what any step
from a terminal state leaves. -/
theorem directOperationsKeepTheTransaction : Obligations.DirectOperationsKeepTheTransaction := by
  refine ⟨?exec, fun b sl draw hfree => Block.protocolView_inj.mp (tick_protocolView_of_free hfree sl draw), ?terminal⟩
  case exec =>
    intro i s t hi hexec
    have hkept : t.blk.protocolView = s.blk.protocolView ∧ (s.blk.busy = true → t.blk = s.blk.reject) := by
      obtain ⟨-, rfl⟩ | ⟨hb, rfl⟩ := exec_cases hexec
      · exact ⟨rfl, fun _ => rfl⟩
      · exact ⟨acceptance_protocolView hi s.blk, fun hbusy => absurd (hb.symm.trans hbusy) (by decide)⟩
    simpa only [Block.protocolView_inj, and_assoc, Block.reject] using hkept
  case terminal =>
    intro s t hterminal hstep hne
    have hfree : s.blk.st.busy = false := (Protocol.busy_eq_false_iff _).mpr (.inr hterminal)
    obtain hreset | hread | hview := step_protocolView_cases hfree hstep
    · exact .inl hreset
    · exact .inr hread
    · exact absurd (Block.protocolView_inj.mp hview).1 hne

end Sys2Proof.Machine
end

section
/-! The sampler operations (42_sampler_ops.md R90 to R92): what begins each, its tick, and how long it lasts. -/

namespace Sys2Proof.Machine

/-- Settles O23: the acceptance on a free block, which leaves `SST` at `SMeasure`. -/
theorem measurePulseStartsAMeasurement : Obligations.MeasurePulseStartsAMeasurement :=
  fun lvl timeoutUs _ hb => ⟨exec_free hb (.measurePulse lvl timeoutUs), Block.busy_of_sst nofun⟩

/-- Settles O26: the acceptance on a free block, which leaves `SST` at `SSleep`. -/
theorem sleepStartsAWait : Obligations.SleepStartsAWait :=
  fun durationUs _ hb => ⟨exec_free hb (.sleepUs durationUs), Block.busy_of_sst nofun⟩

theorem count_toNat_ofNat {n : Nat} (h : n < 2 ^ 24) : (BitVec.ofNat 24 n).toNat = n := by
  rw [BitVec.toNat_ofNat, Nat.mod_eq_of_lt h]

/-! The tick of a measurement, by the level and the limit. -/

section
variable {b : Block} {lvl : Level} (hfree : b.st.busy = false) (hsst : b.sst = .measure)
include hfree hsst

theorem tickOn_measure : tickOn lvl b = { tickMeasure lvl b with settle := saturatingSucc b.settle } := by
  obtain ⟨hstart, -⟩ := Protocol.ne_of_not_busy hfree
  rw [tickOn_keep hstart, tickAction_free hfree, tickSampler_measure hsst]

/-- The other level ends the pulse. -/
theorem tickOn_measure_ended (hlvl : lvl ≠ b.exp) : tickOn lvl b = { b with
    pulse := { dur := b.cnt, timedOut := false, lvls := b.pulse.lvls, zero := decide (b.cnt = 0) }
    sst := .idle, settle := saturatingSucc b.settle } := by
  rw [tickOn_measure hfree hsst, tickMeasure, if_pos hlvl]
  rfl

/-- One more sample of the level at the limit is the Timeout. -/
theorem tickOn_measure_timedOut (hlvl : lvl = b.exp) (hlim : b.lim.toNat ≤ b.cnt.toNat) : tickOn lvl b = { b with
    pulse := { dur := b.cnt, timedOut := true, lvls := b.pulse.lvls, zero := false }
    sst := .idle, settle := saturatingSucc b.settle } := by
  rw [tickOn_measure hfree hsst, tickMeasure, if_neg (not_not_intro hlvl), if_pos ((atLimit_iff _ _).mpr hlim)]

/-- A sample of the level below the limit is counted. -/
theorem tickOn_measure_counted (hlvl : lvl = b.exp) (hlim : b.cnt.toNat < b.lim.toNat) :
    tickOn lvl b = { b with cnt := b.cnt + 1, settle := saturatingSucc b.settle } := by
  have hbelow : ¬atLimit b.cnt b.lim = true := by rwa [atLimit_iff, Nat.not_le]
  rw [tickOn_measure hfree hsst, tickMeasure, if_neg (not_not_intro hlvl), if_neg hbelow]

end

/-- Settles O24, by the three cases of the tick, each with the sample of the state before it. -/
theorem measureTickTestsLevelBeforeLimit : Obligations.MeasureTickTestsLevelBeforeLimit :=
  fun _ _ _ hsst hfree => ⟨tickOn_measure_ended hfree hsst, tickOn_measure_timedOut hfree hsst,
    tickOn_measure_counted hfree hsst⟩

/-- `b` in a `MEASURE_PULSE lvl, limit` that has counted `k` samples, with `SETTLE = c`. -/
def Block.measuring (lvl : Level) (limit : Count) (k : Nat) (c : Count) (b : Block) : Block :=
  { b with sst := .measure, exp := lvl, lim := limit, cnt := BitVec.ofNat 24 k, settle := c }

theorem acceptance_measurePulse (lvl : Level) (limit : Count) (b : Block) :
    acceptance (.measurePulse lvl limit) b = b.measuring lvl limit 0 b.settle := rfl

/-- Up to the limit a measurement counts the samples of its level and changes nothing but `CNT` and `SETTLE`. -/
theorem sampledTicks_measuring {b : Block} (hfree : b.st.busy = false) (lvl : Level) {limit : Count} {k : Nat}
    (hk : k ≤ limit.toNat) : ∃ c, sampledTicks (List.replicate k lvl) (acceptance (.measurePulse lvl limit) b) =
      b.measuring lvl limit k c := by
  induction k with
  | zero => exact ⟨b.settle, acceptance_measurePulse lvl limit b⟩
  | succ k ih =>
    obtain ⟨c, hrun⟩ := ih (Nat.le_of_succ_le hk)
    have hbelow : (BitVec.ofNat 24 k).toNat < limit.toNat := by
      rwa [count_toNat_ofNat (Nat.lt_trans hk limit.isLt)]
    refine ⟨saturatingSucc c, ?_⟩
    rw [sampledTicks_replicate_succ, hrun, Block.measuring, Block.measuring, BitVec.ofNat_add]
    exact tickOn_measure_counted (b := b.measuring lvl limit k c) hfree rfl rfl hbelow

/-- Settles O25: `k` samples of the level are counted, and the tick after them ends the pulse or, at the limit, is the
Timeout. -/
theorem measurePulseReturnsDurationOrTimeout : Obligations.MeasurePulseReturnsDurationOrTimeout := by
  intro s t lvl other limit k hb hother hexec
  rw [exec_free hb] at hexec
  cases hexec
  obtain ⟨hfree, -⟩ := s.blk.busy_eq_false.mp hb
  rw [State.onBlock_blk]
  refine ⟨fun hk => ?ended, ?timedOut⟩
  case ended =>
    obtain ⟨c, hrun⟩ := sampledTicks_measuring hfree lvl hk
    have hzero : BitVec.ofNat 24 k = 0 ↔ k = 0 := by
      rw [← BitVec.toNat_inj, count_toNat_ofNat (Nat.lt_of_le_of_lt hk limit.isLt)]
      rfl
    rw [sampledTicks_append, hrun, sampledTicks_cons, sampledTicks_nil,
      tickOn_measure_ended (b := s.blk.measuring lvl limit k c) hfree rfl hother, ← decide_eq_decide.mpr hzero]
    exact ⟨rfl, rfl, rfl⟩
  case timedOut =>
    obtain ⟨c, hrun⟩ := sampledTicks_measuring hfree lvl (Nat.le_refl limit.toNat)
    have hcnt : (s.blk.measuring lvl limit limit.toNat c).cnt = limit :=
      (BitVec.ofNat_toNat 24 limit).trans (BitVec.setWidth_eq limit)
    rw [sampledTicks_replicate_succ, hrun, tickOn_measure_timedOut (lvl := lvl)
      (b := s.blk.measuring lvl limit limit.toNat c) hfree rfl rfl (congrArg BitVec.toNat hcnt).ge, hcnt]
    exact ⟨rfl, rfl⟩

/-! The wait. -/

/-- The tick of a wait, which tests the incremented count whatever the inputs. -/
theorem tick_sleep {b : Block} (hfree : b.st.busy = false) (hsst : b.sst = .sleep) (sl : Bool) (draw : Level) :
    tick sl draw b = { b with
      cnt := b.cnt + 1, sst := if reaches b.cnt b.lim then .idle else .sleep, settle := saturatingSucc b.settle } := by
  rw [tick_eq_of_action ((tickAction_free hfree _).trans (tickSampler_sleep hsst _))]
  exact settleTick_keep rfl

/-- `b` in a `SLEEP_US d` that has counted `n` ticks, with `SETTLE = c`. -/
def Block.sleeping (d : Count) (n : Nat) (c : Count) (b : Block) : Block :=
  { b with sst := .sleep, lim := d, cnt := BitVec.ofNat 24 n, settle := c }

theorem acceptance_sleepUs (d : Count) (b : Block) : acceptance (.sleepUs d) b = b.sleeping d 0 b.settle := rfl

/-- The tick of a wait that has counted `n` ticks is the last one when the duration is `n + 1`. -/
theorem tick_sleeping {b : Block} (hfree : b.st.busy = false) {d : Count} {n : Nat} (hn : n < duration d) (c : Count)
    (sl : Bool) (draw : Level) : tick sl draw (b.sleeping d n c) =
      { b.sleeping d (n + 1) (saturatingSucc c) with sst := if n + 1 < duration d then .sleep else .idle } := by
  have hover : reaches (BitVec.ofNat 24 n) d = true ↔ ¬n + 1 < duration d := by
    rw [reaches_iff, count_toNat_ofNat (Nat.lt_trans hn (duration_lt d)), duration]
    omega
  have hsst : (if reaches (BitVec.ofNat 24 n) d then Sampler.idle else .sleep) =
      if n + 1 < duration d then .sleep else .idle := (if_congr hover rfl rfl).trans (ite_not ..)
  rw [tick_sleep (b := b.sleeping d n c) hfree rfl, Block.sleeping, Block.sleeping, hsst, BitVec.ofNat_add]
  rfl

/-- Until its duration is over a wait counts the ticks and changes nothing but `CNT` and `SETTLE`. -/
theorem ticks_sleeping {b : Block} (hfree : b.st.busy = false) {d : Count} {inputs : List TickInput}
    (hlen : inputs.length < duration d) :
    ∃ c, ticks inputs (acceptance (.sleepUs d) b) = b.sleeping d inputs.length c := by
  induction inputs using List.reverseRecOn with
  | nil => exact ⟨b.settle, acceptance_sleepUs d b⟩
  | append_singleton inputs i ih =>
    rw [List.length_append, List.length_singleton] at hlen ⊢
    have hbefore := Nat.lt_of_succ_lt hlen
    obtain ⟨c, hrun⟩ := ih hbefore
    refine ⟨saturatingSucc c, ?_⟩
    rw [ticks_append, hrun, ticks_cons, ticks_nil, tick_sleeping hfree hbefore, if_pos hlen, Block.sleeping]

/-- Settles O27: the wait counts every tick but the last, and the last one ends it. -/
theorem sleepLastsExactlyItsDuration : Obligations.SleepLastsExactlyItsDuration := by
  intro s t d inputs hb hexec
  rw [exec_free hb] at hexec
  cases hexec
  obtain ⟨hfree, -⟩ := s.blk.busy_eq_false.mp hb
  rw [← duration, State.onBlock_blk]
  refine ⟨fun hlen => ?running, fun hlen => ?ended⟩
  case running =>
    obtain ⟨c, hrun⟩ := ticks_sleeping hfree hlen
    rw [hrun, Block.sleeping]
  case ended =>
    obtain rfl | ⟨before, last, rfl⟩ := inputs.eq_nil_or_concat'
    · exact absurd hlen (duration_pos d).ne
    · rw [List.length_append, List.length_singleton] at hlen
      have hbefore : before.length < duration d := hlen ▸ Nat.lt_succ_self _
      obtain ⟨c, hrun⟩ := ticks_sleeping hfree hbefore
      refine ⟨saturatingSucc c, ?_⟩
      rw [ticks_append, hrun, ticks_cons, ticks_nil, tick_sleeping hfree hbefore, if_neg hlen.not_lt, hlen,
        Block.sleeping]

end Sys2Proof.Machine
end

section
/-! The tick of a transaction, one equation for each rule and sample (43_protocol_read.md R101 to R108;
44_validate_decode.md R134). -/

namespace Sys2Proof.Machine

theorem tick_of_sample {b : Block} {sl : Bool} {draw lvl : Level} (h : sample sl draw b = lvl) :
    tick sl draw b = tickOn lvl b := by rw [tick, h]

theorem tickOn_of_action {b b' : Block} {lvl : Level} (hst : b.st ≠ .hostStart) (h : tickAction lvl b = b') :
    tickOn lvl b = { b' with settle := saturatingSucc b.settle } := by rw [tickOn_keep hst, h]

/-- `b` after a tick that only counts. -/
def Block.count (b : Block) : Block := { b with cnt := b.cnt + 1, settle := saturatingSucc b.settle }

/-- `b` after the last tick of HostStart (43_protocol_read.md R101). -/
def Block.startOver (b : Block) : Block :=
  { b with
    dir := .input, st := .waitSensorAck, ph := false, cnt := 0
    settle := if b.dir = .input then saturatingSucc b.settle else 0 }

/-- `b` after the last tick of the delay phase (43_protocol_read.md R102). -/
def Block.delayOver (b : Block) : Block := { b with ph := true, cnt := 0, settle := saturatingSucc b.settle }

section
variable {b : Block}

/-! The two waits, which do not sample. -/

theorem tickOn_hostStart (hst : b.st = .hostStart) (lvl : Level) :
    tickOn lvl b = if b.timing.tStart.toNat ≤ b.cnt.toNat + 1 then b.startOver else b.count := by
  rw [tickOn, tickAction_hostStart hst, tickHostStart]
  simp only [reaches_iff]
  split
  · cases hd : b.dir with
    | input => simp [Block.startOver, settleTick_keep, hd]
    | output => simp [Block.startOver, settleTick_switch, hd]
  · exact settleTick_keep rfl

theorem tickOn_ackDelay (hst : b.st = .waitSensorAck) (hp : b.ph = false) (lvl : Level) :
    tickOn lvl b = if b.timing.tAckDelay.toNat ≤ b.cnt.toNat + 1 then b.delayOver else b.count := by
  rw [tickOn, tickAction_ackDelay hst hp, tickAckDelay]
  simp only [reaches_iff]
  split <;> exact settleTick_keep rfl

/-! The samples of the level a phase counts. -/

/-- The phases that sample: `b` counts samples of the level up to the limit, and more of them are the error
(43_protocol_read.md R103 to R108). -/
inductive Block.Awaits (b : Block) : Level → Count → ErrCode → Prop
  | answer (hst : b.st = .waitSensorAck) (hp : b.ph = true) : b.Awaits .high b.timing.tRespWindow .noResponse
  | pulse {lvl : Level} {limit : Count} (h : b.chainedPulse = some (lvl, limit)) : b.Awaits lvl limit .timeout

theorem chainedPulse_readyLow (hst : b.st = .waitSensorReady) (hp : b.ph = false) :
    b.chainedPulse = some (.low, b.timing.tAckLowTo) := by simp [Block.chainedPulse, hst, hp]

theorem chainedPulse_readyHigh (hst : b.st = .waitSensorReady) (hp : b.ph = true) :
    b.chainedPulse = some (.high, b.timing.tAckHighTo) := by simp [Block.chainedPulse, hst, hp]

theorem chainedPulse_bitLow (hst : b.st = .readingBits) (hp : b.ph = false) :
    b.chainedPulse = some (.low, b.timing.tBitLowTo) := by simp [Block.chainedPulse, hst, hp]

theorem chainedPulse_bitHigh (hst : b.st = .readingBits) (hp : b.ph = true) :
    b.chainedPulse = some (.high, b.timing.tBitHighTo) := by simp [Block.chainedPulse, hst, hp]

/-- The four chained pulses. -/
theorem chainedPulse_cases {lvl : Level} {limit : Count} (h : b.chainedPulse = some (lvl, limit)) :
    (b.st = .waitSensorReady ∧ b.ph = false ∧ lvl = .low ∧ limit = b.timing.tAckLowTo) ∨
    (b.st = .waitSensorReady ∧ b.ph = true ∧ lvl = .high ∧ limit = b.timing.tAckHighTo) ∨
    (b.st = .readingBits ∧ b.ph = false ∧ lvl = .low ∧ limit = b.timing.tBitLowTo) ∨
    (b.st = .readingBits ∧ b.ph = true ∧ lvl = .high ∧ limit = b.timing.tBitHighTo) := by
  unfold Block.chainedPulse at h
  split at h <;> cases h <;> simp [*]

variable {lvl : Level} {limit : Count} {code : ErrCode}

theorem Block.Awaits.ne_hostStart (h : b.Awaits lvl limit code) : b.st ≠ .hostStart := by
  cases h with
  | answer hst _ => simp [hst]
  | pulse h => obtain ⟨hst, -⟩ | ⟨hst, -⟩ | ⟨hst, -⟩ | ⟨hst, -⟩ := chainedPulse_cases h <;> simp [hst]

theorem tickAction_awaited (h : b.Awaits lvl limit code) : tickAction lvl b = b.countOrFail limit code := by
  cases h with
  | answer hst hp => rw [tickAction_ackPoll hst hp, tickAckPoll_high]
  | pulse h =>
    obtain ⟨hst, hp, rfl, rfl⟩ | ⟨hst, hp, rfl, rfl⟩ | ⟨hst, hp, rfl, rfl⟩ | ⟨hst, hp, rfl, rfl⟩ :=
      chainedPulse_cases h
    · rw [tickAction_readyLow hst hp, tickReadyLow_low]
    · rw [tickAction_readyHigh hst hp, tickReadyHigh_high]
    · rw [tickAction_bitLow hst hp, tickBitLow_low]
    · rw [tickAction_bitHigh hst hp, tickBitHigh_high]

theorem tickOn_awaited_atLimit (h : b.Awaits lvl limit code) (hlim : limit.toNat ≤ b.cnt.toNat) :
    tickOn lvl b = { b.fail code with settle := saturatingSucc b.settle } :=
  tickOn_of_action h.ne_hostStart
    ((tickAction_awaited h).trans (if_pos ((atLimit_iff _ _).mpr hlim)))

theorem tickOn_awaited_below (h : b.Awaits lvl limit code) (hlim : b.cnt.toNat < limit.toNat) :
    tickOn lvl b = b.count :=
  tickOn_of_action h.ne_hostStart
    ((tickAction_awaited h).trans (if_neg (by rwa [atLimit_iff, Nat.not_le])))

theorem tick_awaited_atLimit {sl : Bool} {draw : Level} (h : b.Awaits lvl limit code) (hs : sample sl draw b = lvl)
    (hlim : limit.toNat ≤ b.cnt.toNat) :
    tick sl draw b = { b.fail code with settle := saturatingSucc b.settle } :=
  (tick_of_sample hs).trans (tickOn_awaited_atLimit h hlim)

theorem tick_awaited_below {sl : Bool} {draw : Level} (h : b.Awaits lvl limit code) (hs : sample sl draw b = lvl)
    (hlim : b.cnt.toNat < limit.toNat) : tick sl draw b = b.count :=
  (tick_of_sample hs).trans (tickOn_awaited_below h hlim)

/-! The samples of the other level. -/

theorem tickOn_ackPoll_low (hst : b.st = .waitSensorAck) (hp : b.ph = true) :
    tickOn .low b = { b with st := .waitSensorReady, ph := false, cnt := 1, settle := saturatingSucc b.settle } :=
  tickOn_of_action (by simp [hst]) (tickAction_ackPoll hst hp .low)

theorem tickOn_readyLow_high (hst : b.st = .waitSensorReady) (hp : b.ph = false) :
    tickOn .high b = { b with ph := true, cnt := 1, settle := saturatingSucc b.settle } :=
  tickOn_of_action (by simp [hst]) (tickAction_readyLow hst hp .high)

theorem tickOn_readyHigh_low (hst : b.st = .waitSensorReady) (hp : b.ph = true) :
    tickOn .low b = { b with st := .readingBits, ph := false, cnt := 1, settle := saturatingSucc b.settle } :=
  tickOn_of_action (by simp [hst]) (tickAction_readyHigh hst hp .low)

theorem tickOn_bitLow_high (hst : b.st = .readingBits) (hp : b.ph = false) :
    tickOn .high b = { b with ph := true, cnt := 1, settle := saturatingSucc b.settle } :=
  tickOn_of_action (by simp [hst]) (tickAction_bitLow hst hp .high)

theorem tickOn_bitHigh_low_zero (hst : b.st = .readingBits) (hp : b.ph = true) (hcnt : b.cnt = 0) :
    tickOn .low b = { b.fail .malformedFrame with settle := saturatingSucc b.settle } := by
  refine tickOn_of_action (by simp [hst]) ?_
  rw [tickAction_bitHigh hst hp]
  simp [tickBitHigh, classify, hcnt]

/-- The bit a data pulse of `b.cnt` samples stands for (44_validate_decode.md R130). -/
def Block.pulseBit (b : Block) : Bool := decide (b.timing.tBitThresh.toNat < b.cnt.toNat)

theorem classify_of_ne_zero {d : Count} (hd : d ≠ 0) (thresh : Count) :
    classify thresh d = .bit (decide (thresh.toNat < d.toNat)) := by
  rw [classify, if_neg hd]
  split <;> simp [*]

theorem tickOn_bitHigh_low (hst : b.st = .readingBits) (hp : b.ph = true) (hcnt : b.cnt ≠ 0) :
    tickOn .low b = { b.capture b.pulseBit with settle := saturatingSucc b.settle } := by
  refine tickOn_of_action (by simp [hst]) ?_
  rw [tickAction_bitHigh hst hp]
  simp only [tickBitHigh, classify_of_ne_zero hcnt, Block.pulseBit]

theorem bitcnt_succ_eq_iff (n : BitVec 6) : n + 1 = 40 ↔ n = 39 := by
  rw [← BitVec.toNat_inj, ← BitVec.toNat_inj]
  simp
  omega

theorem capture_last (h : b.bitcnt = 39) (c : Bool) : b.capture c = { b with
    frame := shiftIn b.frame c, bitcnt := 40, st := .validating, ph := false, cnt := 0 } := by
  simp [Block.capture, h]

theorem capture_next (h : b.bitcnt ≠ 39) (c : Bool) : b.capture c = { b with
    frame := shiftIn b.frame c, bitcnt := b.bitcnt + 1, ph := false, cnt := 1 } :=
  if_neg (mt (bitcnt_succ_eq_iff _).mp h)

/-! Validating. -/

theorem tickOn_validating_checksum (hst : b.st = .validating) (hsum : checksumValid b.frame = false) (lvl : Level) :
    tickOn lvl b = { b.fail .checksumMismatch with settle := saturatingSucc b.settle } := by
  refine tickOn_of_action (by simp [hst]) ?_
  rw [tickAction_validating hst]
  simp [tickValidate, hsum]

theorem tickOn_validating_notSane (hst : b.st = .validating) (hsum : checksumValid b.frame = true)
    (hsane : frameSane b.frame = false) (lvl : Level) :
    tickOn lvl b = { b.fail .malformedFrame with settle := saturatingSucc b.settle } := by
  refine tickOn_of_action (by simp [hst]) ?_
  rw [tickAction_validating hst]
  simp [tickValidate, hsum, hsane]

theorem tickOn_validating_accepted (hst : b.st = .validating) (hsum : checksumValid b.frame = true)
    (hsane : frameSane b.frame = true) (lvl : Level) :
    tickOn lvl b = { b.accepted with settle := saturatingSucc b.settle } := by
  refine tickOn_of_action (by simp [hst]) ?_
  rw [tickAction_validating hst]
  simp [tickValidate, hsum, hsane, Block.accepted]

end

/-- Settles O32: the other level by the phase's own equation, the same level by the limit test that every sampling phase
shares. -/
theorem acknowledgementTicks : Obligations.AcknowledgementTicks := by
  intro b sl draw hst
  refine ⟨?lowEnds, ?lowTimesOut, ?lowCounts, ?highEnds, ?highTimesOut, ?highCounts⟩
  case lowEnds => exact fun hp hs => (tick_of_sample hs).trans (tickOn_readyLow_high hst hp)
  case lowTimesOut => exact fun hp => tick_awaited_atLimit (.pulse (chainedPulse_readyLow hst hp))
  case lowCounts => exact fun hp => tick_awaited_below (.pulse (chainedPulse_readyLow hst hp))
  case highEnds => exact fun hp hs => (tick_of_sample hs).trans (tickOn_readyHigh_low hst hp)
  case highTimesOut => exact fun hp => tick_awaited_atLimit (.pulse (chainedPulse_readyHigh hst hp))
  case highCounts => exact fun hp => tick_awaited_below (.pulse (chainedPulse_readyHigh hst hp))

theorem shiftIn_pulseBit_toNat (f : RawFrame) (b : Block) : (shiftIn f b.pulseBit).toNat =
    2 * f.toNat % 2 ^ 40 + (if b.timing.tBitThresh.toNat < b.cnt.toNat then 1 else 0) := by
  rw [shiftIn_toNat, Block.pulseBit]
  split <;> simp [*]

/-- Settles O33: as O32, and the end of a data pulse by the capture of its bit. -/
theorem bitCaptureTicks : Obligations.BitCaptureTicks := by
  intro b sl draw hst
  refine ⟨?markerEnds, ?markerTimesOut, ?markerCounts, ?zero, ?last, ?next, ?dataTimesOut, ?dataCounts⟩
  case markerEnds => exact fun hp hs => (tick_of_sample hs).trans (tickOn_bitLow_high hst hp)
  case markerTimesOut => exact fun hp => tick_awaited_atLimit (.pulse (chainedPulse_bitLow hst hp))
  case markerCounts => exact fun hp => tick_awaited_below (.pulse (chainedPulse_bitLow hst hp))
  case zero => exact fun hp hs hcnt => (tick_of_sample hs).trans (tickOn_bitHigh_low_zero hst hp hcnt)
  case last =>
    intro hp hs hcnt hbits
    refine ⟨_, shiftIn_pulseBit_toNat b.frame b, ?_⟩
    rw [tick_of_sample hs, tickOn_bitHigh_low hst hp hcnt, capture_last hbits]
  case next =>
    intro hp hs hcnt hbits
    refine ⟨_, shiftIn_pulseBit_toNat b.frame b, ?_⟩
    rw [tick_of_sample hs, tickOn_bitHigh_low hst hp hcnt, capture_next hbits]
  case dataTimesOut => exact fun hp => tick_awaited_atLimit (.pulse (chainedPulse_bitHigh hst hp))
  case dataCounts => exact fun hp => tick_awaited_below (.pulse (chainedPulse_bitHigh hst hp))

end Sys2Proof.Machine
end

section
/-! The arrows of the protocol (43_protocol_read.md R112): a tick takes the arrow whose condition holds, and no other
step but an accepted `READ` and Reset moves the protocol. -/

namespace Sys2Proof.Machine

theorem tickOn_of_arrow {lvl : Level} {b : Block} {st : Protocol} {ph : Bool} {err : ErrCode}
    (h : TickArrow lvl b st ph err) : (tickOn lvl b).st = st ∧ (tickOn lvl b).ph = ph ∧ (tickOn lvl b).err = err := by
  cases h with
  | startOver hst hover => simp [tickOn_hostStart hst, hover, Block.startOver]
  | delayOver hst hp hover => simp [tickOn_ackDelay hst hp, hover, Block.delayOver, hst]
  | sensorAnswered hst hp hlvl => simp [hlvl, tickOn_ackPoll_low hst hp]
  | noResponse hst hp hlvl hlim => simp [hlvl, tickOn_awaited_atLimit (.answer hst hp) hlim]
  | ackReleased hst hp hlvl => simp [hlvl, tickOn_readyLow_high hst hp, hst]
  | ackLowTimeout hst hp hlvl hlim => simp [hlvl, tickOn_awaited_atLimit (.pulse (chainedPulse_readyLow hst hp)) hlim]
  | firstMarker hst hp hlvl => simp [hlvl, tickOn_readyHigh_low hst hp]
  | ackHighTimeout hst hp hlvl hlim => simp [hlvl, tickOn_awaited_atLimit (.pulse (chainedPulse_readyHigh hst hp)) hlim]
  | markerOver hst hp hlvl => simp [hlvl, tickOn_bitLow_high hst hp, hst]
  | markerTimeout hst hp hlvl hlim => simp [hlvl, tickOn_awaited_atLimit (.pulse (chainedPulse_bitLow hst hp)) hlim]
  | nextMarker hst hp hlvl hcnt hbits => simp [hlvl, tickOn_bitHigh_low hst hp hcnt, capture_next hbits, hst]
  | lastBit hst hp hlvl hcnt hbits => simp [hlvl, tickOn_bitHigh_low hst hp hcnt, capture_last hbits]
  | dataTimeout hst hp hlvl hlim => simp [hlvl, tickOn_awaited_atLimit (.pulse (chainedPulse_bitHigh hst hp)) hlim]
  | zeroDuration hst hp hlvl hcnt => simp [hlvl, tickOn_bitHigh_low_zero hst hp hcnt]
  | accepted hst hsum hsane => simp [tickOn_validating_accepted hst hsum hsane, Block.accepted]
  | checksumDiffers hst hsum => simp [tickOn_validating_checksum hst hsum]
  | notSane hst hsum hsane => simp [tickOn_validating_notSane hst hsum hsane]

/-- Too many samples of the awaited level are an arrow to Failed. -/
theorem Block.Awaits.arrow {b : Block} {lvl : Level} {limit : Count} {code : ErrCode} (h : b.Awaits lvl limit code)
    (hlim : limit.toNat ≤ b.cnt.toNat) : TickArrow lvl b .failed false code := by
  cases h with
  | answer hst hp => exact .noResponse hst hp rfl hlim
  | pulse h =>
    obtain ⟨hst, hp, rfl, rfl⟩ | ⟨hst, hp, rfl, rfl⟩ | ⟨hst, hp, rfl, rfl⟩ | ⟨hst, hp, rfl, rfl⟩ :=
      chainedPulse_cases h
    · exact .ackLowTimeout hst hp rfl hlim
    · exact .ackHighTimeout hst hp rfl hlim
    · exact .markerTimeout hst hp rfl hlim
    · exact .dataTimeout hst hp rfl hlim

theorem tickOn_protocolView_of_free {b : Block} (h : b.st.busy = false) (lvl : Level) :
    (tickOn lvl b).protocolView = b.protocolView := by
  simp [tickOn, tickAction_free h]

section
variable {lvl : Level} {b : Block} (hnone : ∀ st ph err, ¬TickArrow lvl b st ph err)
include hnone

/-- A sample of the awaited level that takes no arrow is counted. -/
theorem tickOn_awaited_of_no_arrow {limit : Count} {code : ErrCode} (h : b.Awaits lvl limit code) :
    tickOn lvl b = b.count :=
  tickOn_awaited_below h (Nat.lt_of_not_le fun hlim => hnone _ _ _ (h.arrow hlim))

/-- In a transaction a tick that takes no arrow only counts. -/
theorem tickOn_of_no_arrow (hb : b.st.busy = true) : tickOn lvl b = b.count := by
  cases hst : b.st with
  | idle | done | failed => simp [hst, Protocol.busy] at hb
  | hostStart => rw [tickOn_hostStart hst, if_neg fun hover => hnone _ _ _ (.startOver hst hover)]
  | waitSensorAck =>
    cases hp : b.ph with
    | false => rw [tickOn_ackDelay hst hp, if_neg fun hover => hnone _ _ _ (.delayOver hst hp hover)]
    | true =>
      cases lvl with
      | low => exact absurd (.sensorAnswered hst hp rfl) (hnone _ _ _)
      | high => exact tickOn_awaited_of_no_arrow hnone (.answer hst hp)
  | waitSensorReady =>
    cases hp : b.ph with
    | false =>
      cases lvl with
      | low => exact tickOn_awaited_of_no_arrow hnone (.pulse (chainedPulse_readyLow hst hp))
      | high => exact absurd (.ackReleased hst hp rfl) (hnone _ _ _)
    | true =>
      cases lvl with
      | low => exact absurd (.firstMarker hst hp rfl) (hnone _ _ _)
      | high => exact tickOn_awaited_of_no_arrow hnone (.pulse (chainedPulse_readyHigh hst hp))
  | readingBits =>
    cases hp : b.ph with
    | false =>
      cases lvl with
      | low => exact tickOn_awaited_of_no_arrow hnone (.pulse (chainedPulse_bitLow hst hp))
      | high => exact absurd (.markerOver hst hp rfl) (hnone _ _ _)
    | true =>
      cases lvl with
      | low =>
        by_cases hcnt : b.cnt = 0
        · exact absurd (.zeroDuration hst hp rfl hcnt) (hnone _ _ _)
        · by_cases hbits : b.bitcnt = 39
          · exact absurd (.lastBit hst hp rfl hcnt hbits) (hnone _ _ _)
          · exact absurd (.nextMarker hst hp rfl hcnt hbits) (hnone _ _ _)
      | high => exact tickOn_awaited_of_no_arrow hnone (.pulse (chainedPulse_bitHigh hst hp))
  | validating =>
    cases hsum : checksumValid b.frame with
    | false => exact absurd (.checksumDiffers hst hsum) (hnone _ _ _)
    | true =>
      cases hsane : frameSane b.frame with
      | false => exact absurd (.notSane hst hsum hsane) (hnone _ _ _)
      | true => exact absurd (.accepted hst hsum hsane) (hnone _ _ _)

theorem tickOn_protocol_of_no_arrow :
    (tickOn lvl b).st = b.st ∧ (tickOn lvl b).ph = b.ph ∧ (tickOn lvl b).err = b.err := by
  cases hb : b.st.busy with
  | true =>
    rw [tickOn_of_no_arrow hnone hb]
    exact ⟨rfl, rfl, rfl⟩
  | false =>
    obtain ⟨hst, hp, -, -, herr, -⟩ := Block.protocolView_inj.mp (tickOn_protocolView_of_free hb lvl)
    exact ⟨hst, hp, herr⟩

end

/-- No tick of another state enters HostStart. -/
theorem tickOn_ne_hostStart {b : Block} (hst : b.st ≠ .hostStart) (lvl : Level) : (tickOn lvl b).st ≠ .hostStart := by
  by_cases hnone : ∀ st ph err, ¬TickArrow lvl b st ph err
  · rwa [(tickOn_protocol_of_no_arrow hnone).1]
  · push Not at hnone
    obtain ⟨st, ph, err, harrow⟩ := hnone
    rw [(tickOn_of_arrow harrow).1]
    cases harrow <;> nofun

/-- A step that moves `ST` or `PH` is a tick, Reset or an accepted `READ`. -/
theorem step_moves_protocol {s t : State} (hstep : step s = .next t)
    (hmoved : t.blk.st ≠ s.blk.st ∨ t.blk.ph ≠ s.blk.ph) :
    (∃ sl draw, t.blk = tick sl draw s.blk ∧ (s.schedule = [] ∨ s.schedule.head? = some (.tick sl draw))) ∨
    (s.schedule.head? = some .reset ∧ t.blk = Block.reset) ∨
    (∃ v, s.schedule.head? = some (.hostWrite 0 v) ∧ decode v = .ok .read ∧ s.blk.busy = false ∧
      t.blk = s.blk.startRead) := by
  obtain ⟨sl, draw, hblk, hhead⟩ | hreset | ⟨-, -, hblk⟩ | ⟨-, -, -, hblk | hblk⟩ | ⟨v, i, hhead, hi, hb, hblk⟩ |
    ⟨n, v, -, -, -, hblk⟩ := step_cases hstep
  · exact .inl ⟨sl, draw, hblk, hhead.imp_left List.head?_eq_none_iff.mp⟩
  · exact .inr (.inl hreset)
  · simp [hblk] at hmoved
  · simp [hblk] at hmoved
  · simp [hblk] at hmoved
  · by_cases hread : i = .read
    · subst hread
      exact .inr (.inr ⟨v, hhead, hi, hb, hblk⟩)
    · obtain ⟨hst, hp, -⟩ := Block.protocolView_inj.mp (acceptance_protocolView hread s.blk)
      simp [hblk, hst, hp] at hmoved
  · simp [hblk] at hmoved

/-- Settles O41, by the arrows one at a time, by the states for a tick that takes none, and by the kinds of step. -/
theorem protocolMovesOnlyAlongTheTable : Obligations.ProtocolMovesOnlyAlongTheTable := by
  refine ⟨fun _ _ _ _ _ h => tickOn_of_arrow h, fun _ _ hnone => tickOn_protocol_of_no_arrow hnone, ?_⟩
  intro s t hstep hmoved
  obtain htick | ⟨hhead, hblk⟩ | ⟨v, hhead, hread, hb, hblk⟩ := step_moves_protocol hstep hmoved
  · exact .inl htick
  · exact .inr (.inl ⟨hhead, hblk ▸ rfl⟩)
  · exact .inr (.inr ⟨v, hhead, hread, hb, hblk ▸ s.blk.startRead_st⟩)

end Sys2Proof.Machine
end

section
/-! Runs of ticks that only count: the two waits (43_protocol_read.md R101, R102), the poll (R103) and the chained
pulses (R104 (a)). -/

namespace Sys2Proof.Machine

/-- `b` after `n` ticks that only count. -/
def Block.counted (n : Nat) (b : Block) : Block :=
  { b with cnt := b.cnt + BitVec.ofNat 24 n, settle := saturatingSucc^[n] b.settle }

@[simp] theorem Block.counted_zero (b : Block) : b.counted 0 = b := by simp [Block.counted]

theorem Block.counted_succ (n : Nat) (b : Block) : b.counted (n + 1) = (b.counted n).count := by
  simp [Block.counted, Block.count, Function.iterate_succ_apply', BitVec.ofNat_add, BitVec.add_assoc]

@[simp] theorem Block.counted_dir (n : Nat) (b : Block) : (b.counted n).dir = b.dir := rfl
@[simp] theorem Block.counted_st (n : Nat) (b : Block) : (b.counted n).st = b.st := rfl
@[simp] theorem Block.counted_ph (n : Nat) (b : Block) : (b.counted n).ph = b.ph := rfl
@[simp] theorem Block.counted_timing (n : Nat) (b : Block) : (b.counted n).timing = b.timing := rfl

theorem Block.counted_cnt_toNat {b : Block} {n : Nat} (h : b.cnt.toNat + n < 2 ^ 24) :
    (b.counted n).cnt.toNat = b.cnt.toNat + n := by
  have hn : n < 2 ^ 24 := Nat.lt_of_le_of_lt (Nat.le_add_left _ _) h
  rw [Block.counted, BitVec.toNat_add, count_toNat_ofNat hn, Nat.mod_eq_of_lt h]

theorem iterate_saturatingSucc_toNat (n : Nat) (c : Count) :
    (saturatingSucc^[n] c).toNat = min (c.toNat + n) (2 ^ 24 - 1) := by
  induction n with
  | zero =>
    have := c.isLt
    rw [Function.iterate_zero_apply]
    omega
  | succ n ih =>
    rw [Function.iterate_succ_apply', saturatingSucc_toNat, ih]
    omega

/-- When each of the ticks only counts, so does the run. -/
theorem sampledTicks_eq_counted {b : Block} {levels : List Level}
    (h : ∀ k < levels.length, ∀ lvl ∈ levels, tickOn lvl (b.counted k) = (b.counted k).count) :
    sampledTicks levels b = b.counted levels.length := by
  induction levels using List.reverseRecOn with
  | nil => simp
  | append_singleton levels lvl ih =>
    simp only [List.length_append, List.length_singleton] at h ⊢
    rw [sampledTicks_append, ih fun k hk l hl => h k (by omega) l (by simp [hl]), sampledTicks_cons, sampledTicks_nil,
      h _ (Nat.lt_succ_self _) lvl (by simp), Block.counted_succ]

/-- A run of ticks, as the run of its samples. -/
theorem exists_ticks_eq_sampledTicks (inputs : List TickInput) (b : Block) :
    ∃ levels : List Level, levels.length = inputs.length ∧ ticks inputs b = sampledTicks levels b := by
  induction inputs generalizing b with
  | nil => exact ⟨[], rfl, rfl⟩
  | cons i inputs ih =>
    obtain ⟨levels, hlen, hrun⟩ := ih (tick i.1 i.2 b)
    exact ⟨sample i.1 i.2 b :: levels, by simp [hlen], hrun⟩

/-! A wait of `limit`: the tick that reaches the limit ends it with `finish`, and each before it only counts. -/

section
variable {b : Block} {limit : Count} {finish : Block → Block} {inputs : List TickInput} (hcnt : b.cnt = 0)
  (hrule : ∀ k lvl, tickOn lvl (b.counted k) =
    if limit.toNat ≤ (b.counted k).cnt.toNat + 1 then finish (b.counted k) else (b.counted k).count)
include hcnt hrule

theorem tickOn_waiting {k : Nat} (hk : k < duration limit) (lvl : Level) :
    tickOn lvl (b.counted k) = if k + 1 = duration limit then finish (b.counted k) else (b.counted k).count := by
  have hzero : b.cnt.toNat = 0 := congrArg BitVec.toNat hcnt
  have hlt := duration_lt limit
  have hend : limit.toNat ≤ (b.counted k).cnt.toNat + 1 ↔ k + 1 = duration limit := by
    rw [Block.counted_cnt_toNat (by omega), hzero]
    rw [duration] at hk ⊢
    omega
  rw [hrule, if_congr hend rfl rfl]

theorem ticks_waiting (hlen : inputs.length < duration limit) : ticks inputs b = b.counted inputs.length := by
  obtain ⟨levels, hlevels, hrun⟩ := exists_ticks_eq_sampledTicks inputs b
  rw [hrun, ← hlevels]
  refine sampledTicks_eq_counted fun k hk lvl _ => ?_
  rw [tickOn_waiting hcnt hrule (by omega), if_neg (by omega)]

theorem ticks_wait_over (hlen : inputs.length = duration limit) :
    ticks inputs b = finish (b.counted (duration limit - 1)) := by
  obtain rfl | ⟨before, last, rfl⟩ := inputs.eq_nil_or_concat'
  · exact absurd hlen (duration_pos limit).ne
  · rw [List.length_append, List.length_singleton] at hlen
    rw [ticks_append, ticks_waiting hcnt hrule (by omega), ticks_cons, ticks_nil, tick,
      tickOn_waiting hcnt hrule (by omega), if_pos hlen, ← hlen, Nat.add_sub_cancel]

end

/-! HostStart. -/

section
variable {b : Block} {inputs : List TickInput} (hst : b.st = .hostStart) (hcnt : b.cnt = 0)
include hst hcnt

theorem ticks_hostStart_running (hlen : inputs.length < duration b.timing.tStart) :
    ticks inputs b = b.counted inputs.length :=
  ticks_waiting (finish := Block.startOver) hcnt (fun k lvl => tickOn_hostStart (b := b.counted k) hst lvl) hlen

theorem ticks_hostStart_over (hdir : b.dir = .output) (hlen : inputs.length = duration b.timing.tStart) :
    ticks inputs b = { b with dir := .input, st := .waitSensorAck, ph := false, cnt := 0, settle := 0 } := by
  rw [ticks_wait_over (finish := Block.startOver) hcnt (fun k lvl => tickOn_hostStart (b := b.counted k) hst lvl) hlen]
  simp [Block.startOver, Block.counted, hdir]

end

/-- Settles O29: the tick by its equation; the wire is driven while HostStart counts, and its last tick releases it. -/
theorem hostStartHoldsTheWireLow : Obligations.HostStartHoldsTheWireLow := by
  refine ⟨fun b sl draw hst => tickOn_hostStart hst _, ?_⟩
  intro s t inputs hb hexec
  rw [exec_free hb] at hexec
  cases hexec
  rw [State.onBlock_blk, acceptance, ← duration, ← s.blk.startRead_timing]
  have hst := s.blk.startRead_st
  have hcnt := s.blk.startRead_cnt
  have hdir := s.blk.startRead_dir
  refine ⟨fun hlen => ?running, fun hlen => ?ended⟩
  case running =>
    rw [ticks_hostStart_running hst hcnt hlen]
    exact ⟨hst, fun sl => (Block.wire_eq _ sl).trans (if_pos (.inl hdir))⟩
  case ended =>
    rw [ticks_hostStart_over hst hcnt hdir hlen]
    exact ⟨rfl, rfl, rfl, rfl, rfl⟩

/-! The delay phase. -/

section
variable {b : Block} {inputs : List TickInput} (hst : b.st = .waitSensorAck) (hp : b.ph = false) (hcnt : b.cnt = 0)
include hst hp hcnt

theorem ticks_ackDelay_running (hlen : inputs.length < duration b.timing.tAckDelay) :
    ticks inputs b = b.counted inputs.length :=
  ticks_waiting (finish := Block.delayOver) hcnt (fun k lvl => tickOn_ackDelay (b := b.counted k) hst hp lvl) hlen

theorem ticks_ackDelay_over (hlen : inputs.length = duration b.timing.tAckDelay) : ticks inputs b =
    { b with ph := true, cnt := 0, settle := saturatingSucc^[duration b.timing.tAckDelay] b.settle } := by
  rw [ticks_wait_over (finish := Block.delayOver) hcnt (fun k lvl => tickOn_ackDelay (b := b.counted k) hst hp lvl)
    hlen, ← Nat.sub_add_cancel (duration_pos b.timing.tAckDelay), Function.iterate_succ_apply', Nat.add_sub_cancel]
  rfl

end

/-- Settles O30: the tick by its equation; the wait counts every tick but the last, which ends it. -/
theorem ackDelayLastsItsTicks : Obligations.AckDelayLastsItsTicks := by
  refine ⟨fun b sl draw hst hp => tickOn_ackDelay hst hp _, ?_⟩
  intro b inputs hst hp hcnt
  refine ⟨fun hlen => ?_, fun hlen => ?_⟩
  · rw [ticks_ackDelay_running hst hp hcnt hlen]
    exact ⟨hst, hp⟩
  · rw [ticks_ackDelay_over hst hp hcnt hlen]
    exact ⟨hst, rfl, rfl⟩

/-! The poll and the chained pulses. -/

theorem Block.Awaits.counted {b : Block} {lvl : Level} {limit : Count} {code : ErrCode} (h : b.Awaits lvl limit code)
    (n : Nat) : (b.counted n).Awaits lvl limit code := by
  cases h with
  | answer hst hp => exact .answer hst hp
  | pulse h => exact .pulse h

section
variable {b : Block} {lvl : Level} {limit : Count} {code : ErrCode} (h : b.Awaits lvl limit code)
include h

/-- Samples of the awaited level up to the limit are counted. A pulse that has reached its limit already, as a limit of
0 is reached by its first sample, has none left to count. -/
theorem sampledTicks_awaited {n : Nat} (hn : b.cnt.toNat + n ≤ max limit.toNat b.cnt.toNat) :
    sampledTicks (List.replicate n lvl) b = b.counted n := by
  have hrun := sampledTicks_eq_counted (b := b) (levels := List.replicate n lvl) fun k hk l hl => by
    obtain rfl := List.eq_of_mem_replicate hl
    rw [List.length_replicate] at hk
    have := limit.isLt
    refine tickOn_awaited_below (h.counted k) ?_
    rw [Block.counted_cnt_toNat] <;> omega
  rwa [List.length_replicate] at hrun

/-- One sample more is the error. -/
theorem sampledTicks_awaited_over {n : Nat} (hn : b.cnt.toNat + n = max limit.toNat b.cnt.toNat) :
    sampledTicks (List.replicate (n + 1) lvl) b =
      { b.fail code with settle := saturatingSucc^[n + 1] b.settle } := by
  have hlim : limit.toNat ≤ (b.counted n).cnt.toNat := by
    have := limit.isLt
    have := b.cnt.isLt
    rw [Block.counted_cnt_toNat] <;> omega
  rw [sampledTicks_replicate_succ, sampledTicks_awaited h hn.le, tickOn_awaited_atLimit (h.counted n) hlim,
    Function.iterate_succ_apply']
  rfl

end

/-- Settles O31: the tick by its cases; High samples are counted within the window, a Low after them is the answer, and
one High sample more is NoResponse. -/
theorem pollEndsInAnswerOrNoResponse : Obligations.PollEndsInAnswerOrNoResponse := by
  refine ⟨fun b sl draw hst hp => ⟨?answer, ?noResponse, ?counts⟩,
    fun b k hst hp hcnt => ⟨fun hk => ?window, ?ended⟩⟩
  case answer => exact fun hs => (tick_of_sample hs).trans (tickOn_ackPoll_low hst hp)
  case noResponse => exact tick_awaited_atLimit (.answer hst hp)
  case counts => exact tick_awaited_below (.answer hst hp)
  case window =>
    have hrun := sampledTicks_awaited (n := k) (.answer hst hp) (by simpa [hcnt] using hk)
    rw [sampledTicks_append, hrun, sampledTicks_cons, sampledTicks_nil, tickOn_ackPoll_low (b := b.counted k) hst hp]
    exact ⟨hst, rfl, rfl⟩
  case ended =>
    rw [sampledTicks_awaited_over (.answer hst hp) (by simp [hcnt])]
    exact ⟨rfl, rfl⟩

/-- Settles O34: a pulse that began with `CNT = 1` counts its other samples up to `max(t, 1)`, and one more is the
Timeout. -/
theorem chainedPulseIsMeasuredExactly : Obligations.ChainedPulseIsMeasuredExactly := by
  intro b lvl limit n hpulse hcnt hn
  have hone : b.cnt.toNat = 1 := congrArg BitVec.toNat hcnt
  refine ⟨fun hle => ?within, fun _ => ?ended⟩
  case within =>
    have := limit.isLt
    rw [sampledTicks_awaited (.pulse hpulse) (by omega), Block.counted_cnt_toNat (by omega)]
    exact ⟨rfl, rfl, by omega⟩
  case ended =>
    obtain ⟨m, hm⟩ : ∃ m, max limit.toNat 1 = m + 1 := ⟨max limit.toNat 1 - 1, by omega⟩
    rw [hm, sampledTicks_awaited_over (.pulse hpulse) (by omega)]
    exact ⟨rfl, rfl⟩

end Sys2Proof.Machine
end

section
/-! A transaction from the acceptance of `READ` to its first poll (43_protocol_read.md R100 to R103), and what is
sampled once the wire has settled (10_state.md R31). -/

namespace Sys2Proof.Machine

/-- `READ` on a free block (43_protocol_read.md R100). -/
theorem exec_read_free {s : State} (h : s.blk.busy = false) : exec .read s = .next (s.onBlock Block.startRead) :=
  exec_free h .read

theorem Block.startRead_eq (b : Block) : b.startRead = { b with
    err := .none, valid := false, humX10 := 0, tempX10 := 0, frame := 0, bitcnt := 0, ph := false, cnt := 0
    dir := .output, settle := if b.dir = .input then 0 else b.settle, st := .hostStart } := by
  cases hd : b.dir <;> simp [Block.startRead, Block.switchDir, Block.clearTransaction, hd]

/-- Settles O28: the acceptance clears the transaction and drives the wire. -/
theorem readStartsAFreshTransaction : Obligations.ReadStartsAFreshTransaction := by
  refine ⟨rfl, fun s hb => ?_⟩
  rw [exec_read_free hb, State.onBlock, Block.startRead_eq]

/-- The block at the first poll of a transaction that `b` began (70_reset_and_hazards.md R165). -/
def Block.firstPoll (b : Block) : Block :=
  { b.startRead with
    dir := .input, st := .waitSensorAck, ph := true, cnt := 0
    settle := saturatingSucc^[duration b.timing.tAckDelay] 0 }

@[simp] theorem Block.firstPoll_st (b : Block) : b.firstPoll.st = .waitSensorAck := rfl

/-- HostStart and the delay phase last their ticks whatever the inputs. -/
theorem ticks_startRead {b : Block} {inputs : List TickInput}
    (hlen : inputs.length = duration b.timing.tStart + duration b.timing.tAckDelay) :
    ticks inputs b.startRead = b.firstPoll := by
  have hstart : (inputs.take (duration b.timing.tStart)).length = duration b.startRead.timing.tStart := by
    rw [List.length_take, Block.startRead_timing]
    omega
  rw [← List.take_append_drop (duration b.timing.tStart) inputs, ticks_append,
    ticks_hostStart_over b.startRead_st b.startRead_cnt b.startRead_dir hstart]
  refine (ticks_ackDelay_over rfl rfl rfl ?_).trans ?_
  · rw [List.length_drop, Block.startRead_timing]
    omega
  · rw [Block.firstPoll, Block.startRead_timing]

/-- At the first poll the wire has settled when `T_SETTLE_US` is at most the delay. -/
theorem Block.firstPoll_settled {b : Block} (h : Config.tSettleUs.toNat ≤ duration b.timing.tAckDelay) :
    Config.tSettleUs.toNat ≤ b.firstPoll.settle.toNat := by
  have := duration_lt b.timing.tAckDelay
  rw [Block.firstPoll, iterate_saturatingSucc_toNat]
  omega

/-- The level of a released wire that something outside pulls low or not. -/
def outsideLevel (sensorLow : Bool) : Level := if sensorLow then .low else .high

/-- On a released and settled wire the samples of a run are the levels from outside, whatever the draws. -/
theorem ticks_settled {b : Block} (hst : b.st ≠ .hostStart) (hdir : b.dir = .input)
    (hs : Config.tSettleUs.toNat ≤ b.settle.toNat) (inputs : List TickInput) :
    ticks inputs b = sampledTicks (inputs.map fun i => outsideLevel i.1) b := by
  induction inputs generalizing b with
  | nil => rfl
  | cons i inputs ih =>
    have hkeep := tickOn_keep (lvl := outsideLevel i.1) hst
    have htick : tick i.1 i.2 b = tickOn (outsideLevel i.1) b := tick_of_sample (sample_settled hdir hs i.1 i.2)
    rw [ticks_cons, htick, List.map_cons, sampledTicks_cons]
    refine ih (tickOn_ne_hostStart hst _) ?_ ?_
    · rw [hkeep]
      exact (tickAction_dir hst).trans hdir
    · have := b.settle.isLt
      rw [hkeep, saturatingSucc_toNat]
      omega

/-- The polls of a silent sensor. -/
theorem ticks_firstPoll_silent {b : Block} (hs : Config.tSettleUs.toNat ≤ duration b.timing.tAckDelay)
    {polls : List TickInput} (hquiet : ∀ i ∈ polls, i.1 = false) :
    ticks polls b.firstPoll = sampledTicks (List.replicate polls.length .high) b.firstPoll := by
  rw [ticks_settled (by simp) rfl (Block.firstPoll_settled hs)]
  congr 1
  exact List.map_eq_replicate_iff.mpr fun i hi => by rw [hquiet i hi]; rfl

/-- Settles O51: the polls count High samples within the window, and one more fails with what `READ` cleared still
clear. -/
theorem silentSensorGivesNoResponse : Obligations.SilentSensorGivesNoResponse := by
  intro s t quiet polls hb hs hexec hlen hquiet
  rw [exec_read_free hb] at hexec
  cases hexec
  rw [State.onBlock_blk, ticks_append, ticks_startRead hlen, ticks_firstPoll_silent hs hquiet]
  have hwait : s.blk.firstPoll.Awaits .high s.blk.timing.tRespWindow .noResponse := by
    rw [← s.blk.startRead_timing]
    exact .answer rfl rfl
  have hzero : s.blk.firstPoll.cnt.toNat = 0 := rfl
  refine ⟨fun hle => ?window, fun hover => ?ended⟩
  case window =>
    rw [sampledTicks_awaited hwait (by omega)]
    rfl
  case ended =>
    rw [hover, sampledTicks_awaited_over hwait (by omega)]
    simp [Block.firstPoll]

end Sys2Proof.Machine
end

section
/-! What a transaction does not read (43_protocol_read.md R110): each rule of a tick on a block without `EXP`, `LIM`,
`REJ` and `PULSE` is the rule on the block, less those four. -/

namespace Sys2Proof.Machine

section
variable (b : Block)

@[simp] theorem countOrFail_transactionView (limit : Count) (code : ErrCode) :
    b.transactionView.countOrFail limit code = (b.countOrFail limit code).transactionView := by
  simp only [Block.countOrFail, apply_ite Block.transactionView]
  rfl

theorem tickHostStart_transactionView : tickHostStart b.transactionView = (tickHostStart b).transactionView := by
  simp only [tickHostStart, apply_ite Block.transactionView]
  rfl

theorem tickAckDelay_transactionView : tickAckDelay b.transactionView = (tickAckDelay b).transactionView := by
  simp only [tickAckDelay, apply_ite Block.transactionView]
  rfl

theorem tickAckPoll_transactionView (lvl : Level) :
    tickAckPoll lvl b.transactionView = (tickAckPoll lvl b).transactionView := by
  cases lvl with
  | low => rfl
  | high => exact countOrFail_transactionView b _ _

theorem tickReadyLow_transactionView (lvl : Level) :
    tickReadyLow lvl b.transactionView = (tickReadyLow lvl b).transactionView := by
  cases lvl with
  | low => exact countOrFail_transactionView b _ _
  | high => rfl

theorem tickReadyHigh_transactionView (lvl : Level) :
    tickReadyHigh lvl b.transactionView = (tickReadyHigh lvl b).transactionView := by
  cases lvl with
  | low => rfl
  | high => exact countOrFail_transactionView b _ _

theorem tickBitLow_transactionView (lvl : Level) :
    tickBitLow lvl b.transactionView = (tickBitLow lvl b).transactionView := by
  cases lvl with
  | low => exact countOrFail_transactionView b _ _
  | high => rfl

theorem capture_transactionView (c : Bool) : b.transactionView.capture c = (b.capture c).transactionView := by
  simp only [Block.capture, apply_ite Block.transactionView]
  rfl

theorem tickBitHigh_transactionView (lvl : Level) :
    tickBitHigh lvl b.transactionView = (tickBitHigh lvl b).transactionView := by
  cases lvl with
  | low =>
    have hclassify : classify b.transactionView.timing.tBitThresh b.transactionView.cnt =
      classify b.timing.tBitThresh b.cnt := rfl
    simp only [tickBitHigh, hclassify]
    split
    · rfl
    · exact capture_transactionView b _
  | high => exact countOrFail_transactionView b _ _

theorem tickValidate_transactionView : tickValidate b.transactionView = (tickValidate b).transactionView := by
  simp only [tickValidate, apply_ite Block.transactionView]
  rfl

end

/-- While no sampler operation runs, the action of a tick commutes with the view, one case for each state. -/
theorem tickAction_transactionView {b : Block} (hsst : b.sst = .idle) (lvl : Level) :
    tickAction lvl b.transactionView = (tickAction lvl b).transactionView := by
  have hsampler : tickSampler lvl b.transactionView = (tickSampler lvl b).transactionView := by
    rw [tickSampler_idle hsst, tickSampler_idle (b := b.transactionView) hsst]
  have hst : b.transactionView.st = b.st := rfl
  have hp : b.transactionView.ph = b.ph := rfl
  unfold tickAction
  rw [hst, hp]
  split
  case h_1 => exact hsampler
  case h_2 => exact tickHostStart_transactionView b
  case h_3 =>
    split
    · exact tickAckPoll_transactionView b lvl
    · exact tickAckDelay_transactionView b
  case h_4 =>
    split
    · exact tickReadyHigh_transactionView b lvl
    · exact tickReadyLow_transactionView b lvl
  case h_5 =>
    split
    · exact tickBitHigh_transactionView b lvl
    · exact tickBitLow_transactionView b lvl
  case h_6 => exact tickValidate_transactionView b
  case h_7 => exact hsampler
  case h_8 => exact hsampler

theorem settleTick_transactionView (before after : Block) :
    settleTick before.transactionView after.transactionView = (settleTick before after).transactionView := by
  simp only [settleTick, apply_ite Block.transactionView]
  rfl

section
variable {b : Block} (hsst : b.sst = .idle)
include hsst

theorem tick_transactionView (sl : Bool) (draw : Level) :
    tick sl draw b.transactionView = (tick sl draw b).transactionView := by
  have hsample : sample sl draw b.transactionView = sample sl draw b := rfl
  rw [tick, tickOn, hsample, tickAction_transactionView hsst, settleTick_transactionView]
  rfl

theorem tick_sst_idle (sl : Bool) (draw : Level) : (tick sl draw b).sst = .idle := by
  rw [tick, tickOn, settleTick_sst]
  cases hb : b.st.busy with
  | true => rw [(transactionStep_tickAction hb _).sampler_unchanged.1, hsst]
  | false => rw [tickAction_free hb, tickSampler_idle hsst, hsst]

theorem ticks_transactionView (inputs : List TickInput) :
    ticks inputs b.transactionView = (ticks inputs b).transactionView := by
  induction inputs generalizing b with
  | nil => rfl
  | cons i inputs ih => rw [ticks_cons, ticks_cons, tick_transactionView hsst, ih (tick_sst_idle hsst i.1 i.2)]

end

/-- What a `READ` leaves of the block before it, in the view of the transaction: `DIR`, `SETTLE` and the timing
registers. -/
theorem startRead_transactionView_congr {b b' : Block} (hdir : b.dir = b'.dir) (hsettle : b.settle = b'.settle)
    (htiming : b.timing = b'.timing) (hsst : b.sst = b'.sst) :
    b.startRead.transactionView = b'.startRead.transactionView := by
  rw [b.startRead_eq, b'.startRead_eq, hdir, hsettle]
  simp only [Block.transactionView, htiming, hsst]

/-- Settles O50: the two transactions begin with equal views, and a run's view is the run of the view. -/
theorem transactionsAreIndependent : Obligations.TransactionsAreIndependent := by
  intro s s' t t' inputs hb hb' hdir hsettle htiming hexec hexec'
  rw [exec_read_free hb] at hexec
  rw [exec_read_free hb'] at hexec'
  cases hexec
  cases hexec'
  obtain ⟨-, hsst⟩ := s.blk.busy_eq_false.mp hb
  obtain ⟨-, hsst'⟩ := s'.blk.busy_eq_false.mp hb'
  rw [State.onBlock_blk, State.onBlock_blk, ← ticks_transactionView (s.blk.startRead_sst.trans hsst),
    ← ticks_transactionView (s'.blk.startRead_sst.trans hsst'),
    startRead_transactionView_congr hdir hsettle htiming (hsst.trans hsst'.symm)]

end Sys2Proof.Machine
end

section
/-! A whole reading (43_protocol_read.md R100 to R114; 44_validate_decode.md R134, R135): the acknowledgement, the forty
bits and the tick of Validating, for an answer whose pulses are within their limits. -/

namespace Sys2Proof.Machine

/-! One pulse of an answer. -/

section
variable {b b' : Block} {lvl : Level} {limit : Count} {n : Nat}

/-- The samples of a pulse after the one that began it. -/
theorem sampledTicks_pulse_rest (hpulse : b.chainedPulse = some (lvl, limit)) (hcnt : b.cnt = 1) (h1 : 1 ≤ n)
    (hn : n ≤ duration limit) :
    ∃ c, sampledTicks (List.replicate (n - 1) lvl) b = { b with cnt := BitVec.ofNat 24 n, settle := c } := by
  obtain ⟨m, rfl⟩ := Nat.exists_eq_add_of_le h1
  have hone : b.cnt.toNat = 1 := congrArg BitVec.toNat hcnt
  rw [duration] at hn
  refine ⟨saturatingSucc^[m] b.settle, ?_⟩
  rw [Nat.add_sub_cancel_left, sampledTicks_awaited (.pulse hpulse) (by omega), Block.counted, hcnt, BitVec.ofNat_add]
  rfl

/-- A whole pulse: the edge to its level begins it. -/
theorem sampledTicks_pulse (hedge : tickOn lvl b = b') (hpulse : b'.chainedPulse = some (lvl, limit))
    (hcnt : b'.cnt = 1) (h1 : 1 ≤ n) (hn : n ≤ duration limit) :
    ∃ c, sampledTicks (List.replicate n lvl) b = { b' with cnt := BitVec.ofNat 24 n, settle := c } := by
  obtain ⟨c, hrun⟩ := sampledTicks_pulse_rest hpulse hcnt h1 hn
  refine ⟨c, ?_⟩
  rw [← Nat.sub_add_cancel h1, List.replicate_succ, sampledTicks_cons, hedge, hrun, Nat.sub_add_cancel h1]

end

/-! The acknowledgement. -/

/-- The samples from the first poll to the first of the first marker. -/
def Waveform.ackLevels (w : Waveform) : List Level :=
  List.replicate w.wait Level.high ++ List.replicate w.ackLow Level.low ++ List.replicate w.ackHigh Level.high ++
    [Level.low]

theorem sampledTicks_ackLevels {b : Block} {w : Waveform} (hw : w.Fits b.timing) (hst : b.st = .waitSensorAck)
    (hp : b.ph = true) (hcnt : b.cnt = 0) : ∃ c, sampledTicks w.ackLevels b =
      { b with st := .readingBits, ph := false, cnt := 1, settle := c } := by
  have hzero : b.cnt.toNat = 0 := congrArg BitVec.toNat hcnt
  have hwait : sampledTicks (List.replicate w.wait .high) b = b.counted w.wait :=
    sampledTicks_awaited (.answer hst hp) (by have := hw.wait; omega)
  obtain ⟨c₁, hlow⟩ := sampledTicks_pulse (tickOn_ackPoll_low (b := b.counted w.wait) hst hp)
    (chainedPulse_readyLow rfl rfl) rfl hw.ackLow.1 hw.ackLow.2
  obtain ⟨c₂, hhigh⟩ := sampledTicks_pulse (n := w.ackHigh) (tickOn_readyLow_high
    (b := { b with st := .waitSensorReady, ph := false, cnt := BitVec.ofNat 24 w.ackLow, settle := c₁ }) rfl rfl)
    (chainedPulse_readyHigh rfl rfl) rfl hw.ackHigh.1 hw.ackHigh.2
  refine ⟨saturatingSucc c₂, ?_⟩
  rw [Waveform.ackLevels, sampledTicks_append, sampledTicks_append, sampledTicks_append, hwait, hlow]
  exact (congrArg (tickOn .low) hhigh).trans (tickOn_readyHigh_low rfl rfl)

/-! The bits. -/

/-- The samples of a bit after the first of its marker, with the edge that ends its data pulse: that edge is the first
sample of the next marker, or ends the frame (43_protocol_read.md R108, R111). -/
def bitLevels (p : Nat × Nat) : List Level :=
  List.replicate (p.1 - 1) Level.low ++ List.replicate p.2 Level.high ++ [Level.low]

theorem flatMap_append_low_eq {bits : List (Nat × Nat)} (h : ∀ p ∈ bits, 1 ≤ p.1) :
    (bits.flatMap fun p => List.replicate p.1 Level.low ++ List.replicate p.2 Level.high) ++ [Level.low] =
      Level.low :: bits.flatMap bitLevels := by
  induction bits with
  | nil => rfl
  | cons p bits ih =>
    obtain ⟨m, hm⟩ := Nat.exists_eq_add_of_le' (h p (by simp))
    rw [List.flatMap_cons, List.append_assoc, ih fun q hq => h q (by simp [hq]), List.flatMap_cons, bitLevels, hm,
      Nat.add_sub_cancel, List.replicate_succ]
    simp

/-- The answer, cut at the falling edges of the reading. -/
theorem Waveform.levels_eq {w : Waveform} (h : ∀ p ∈ w.bits, 1 ≤ p.1) :
    w.levels = w.ackLevels ++ w.bits.flatMap bitLevels := by
  rw [Waveform.levels, Waveform.ackLevels, List.append_assoc _ _ [Level.low], flatMap_append_low_eq h]
  simp

theorem Waveform.levels_length (w : Waveform) :
    w.levels.length = w.wait + w.ackLow + w.ackHigh + (w.bits.map fun p => p.1 + p.2).sum + 1 := by
  simp [Waveform.levels, List.length_flatMap, Nat.add_assoc]

/-- The bits the data pulses of an answer stand for, for a threshold of `T_BIT_THRESH`. -/
def pulseBits (thresh : Count) (bits : List (Nat × Nat)) : List Bool :=
  bits.map fun p => decide (thresh.toNat < p.2)

section
variable {b : Block} (hst : b.st = .readingBits) (hp : b.ph = false) (hcnt : b.cnt = 1)
include hst hp hcnt

/-- One bit: the marker and the data pulse are measured, and the falling edge captures the bit. -/
theorem sampledTicks_bitLevels {p : Nat × Nat} (hmarker : 1 ≤ p.1 ∧ p.1 ≤ duration b.timing.tBitLowTo)
    (hdata : 1 ≤ p.2 ∧ p.2 ≤ duration b.timing.tBitHighTo) : ∃ c, sampledTicks (bitLevels p) b =
      { b.capture (decide (b.timing.tBitThresh.toNat < p.2)) with settle := c } := by
  obtain ⟨c₁, hlow⟩ := sampledTicks_pulse_rest (chainedPulse_bitLow hst hp) hcnt hmarker.1 hmarker.2
  obtain ⟨c₂, hhigh⟩ := sampledTicks_pulse (n := p.2) (tickOn_bitLow_high
    (b := { b with cnt := BitVec.ofNat 24 p.1, settle := c₁ }) hst hp)
    (chainedPulse_bitHigh hst rfl) rfl hdata.1 hdata.2
  have hdur : (BitVec.ofNat 24 p.2).toNat = p.2 :=
    count_toNat_ofNat (Nat.lt_of_le_of_lt hdata.2 (duration_lt _))
  have hne : BitVec.ofNat 24 p.2 ≠ 0 := by
    intro e
    have hzero : p.2 = 0 := hdur.symm.trans (congrArg BitVec.toNat e)
    omega
  refine ⟨saturatingSucc c₂, ?_⟩
  rw [bitLevels, sampledTicks_append, sampledTicks_append, hlow, hhigh, sampledTicks_cons, sampledTicks_nil,
    tickOn_bitHigh_low (b := { b with ph := true, cnt := BitVec.ofNat 24 p.2, settle := c₂ }) hst rfl hne,
    Block.pulseBit, hdur, Block.capture, Block.capture]
  split <;> rfl

end

/-- The bits that are still to come, up to the fortieth: each is shifted into the frame, and the last leads to
Validating. -/
theorem sampledTicks_bits {bits : List (Nat × Nat)} {b : Block} (hst : b.st = .readingBits) (hp : b.ph = false)
    (hcnt : b.cnt = 1) (hne : bits ≠ []) (hlen : b.bitcnt.toNat + bits.length = 40)
    (hmarkers : ∀ p ∈ bits, 1 ≤ p.1 ∧ p.1 ≤ duration b.timing.tBitLowTo)
    (hdata : ∀ p ∈ bits, 1 ≤ p.2 ∧ p.2 ≤ duration b.timing.tBitHighTo) :
    ∃ c, sampledTicks (bits.flatMap bitLevels) b = { b with
      frame := (pulseBits b.timing.tBitThresh bits).foldl shiftIn b.frame
      bitcnt := 40, st := .validating, ph := false, cnt := 0, settle := c } := by
  induction bits generalizing b with
  | nil => exact absurd rfl hne
  | cons p bits ih =>
    obtain ⟨c, hbit⟩ := sampledTicks_bitLevels hst hp hcnt (hmarkers p (by simp)) (hdata p (by simp))
    rw [List.flatMap_cons, sampledTicks_append, hbit]
    rw [List.length_cons] at hlen
    cases bits with
    | nil =>
      have hlast : b.bitcnt = 39 := BitVec.eq_of_toNat_eq (Nat.add_right_cancel hlen)
      rw [capture_last hlast]
      exact ⟨c, rfl⟩
    | cons q bits =>
      have hnext : b.bitcnt ≠ 39 := by
        intro e
        have : b.bitcnt.toNat = 39 := congrArg BitVec.toNat e
        rw [List.length_cons] at hlen
        omega
      have hbits : (b.bitcnt + 1).toNat = b.bitcnt.toNat + 1 := by
        rw [BitVec.toNat_add, show (1 : BitVec 6).toNat = 1 from rfl]
        omega
      rw [capture_next hnext]
      exact ih (b := { b with
          frame := shiftIn b.frame (decide (b.timing.tBitThresh.toNat < p.2))
          bitcnt := b.bitcnt + 1, ph := false, cnt := 1, settle := c })
        hst rfl rfl (List.cons_ne_nil q bits) (by rw [hbits]; omega)
        (fun r hr => hmarkers r (List.mem_cons_of_mem p hr)) (fun r hr => hdata r (List.mem_cons_of_mem p hr))

/-- `b` in Validating with the frame that an answer with these bits gives. -/
def Block.answered (bits : List (Nat × Nat)) (c : Count) (b : Block) : Block :=
  { b.firstPoll with
    frame := (pulseBits b.timing.tBitThresh bits).foldl shiftIn 0
    bitcnt := 40, st := .validating, ph := false, cnt := 0, settle := c }

/-- The answer as the wire carries it, from the first poll to Validating. -/
theorem ticks_answer {b : Block} {w : Waveform} {answer : List TickInput}
    (hs : Config.tSettleUs.toNat ≤ duration b.timing.tAckDelay) (hw : w.Fits b.timing)
    (hanswer : answer.map (fun i => i.1) = w.levels.map (fun l => decide (l = .low))) :
    ∃ c, ticks answer b.firstPoll = b.answered w.bits c := by
  have hlevels : (answer.map fun i => outsideLevel i.1) = w.levels := by
    have houtside : ∀ l : Level, outsideLevel (decide (l = .low)) = l := by
      intro l
      cases l <;> rfl
    have := congrArg (List.map outsideLevel) hanswer
    simpa [Function.comp_def, houtside] using this
  have htiming : b.firstPoll.timing = b.timing := b.startRead_timing
  have hframe : b.firstPoll.frame = 0 := b.startRead_frame
  have hbitcnt : b.firstPoll.bitcnt = 0 := b.startRead_bitcnt
  rw [ticks_settled (by simp) rfl (Block.firstPoll_settled hs), hlevels,
    Waveform.levels_eq fun p hp => (hw.markers p hp).1, sampledTicks_append]
  obtain ⟨c₁, hack⟩ := sampledTicks_ackLevels (htiming ▸ hw) b.firstPoll_st rfl rfl
  rw [hack]
  have hne : w.bits ≠ [] := List.ne_nil_of_length_pos (by rw [hw.fortyBits]; decide)
  obtain ⟨c₂, hbits⟩ := sampledTicks_bits
    (b := { b.firstPoll with st := .readingBits, ph := false, cnt := 1, settle := c₁ }) rfl rfl rfl hne
    (by rw [hw.fortyBits, hbitcnt]; rfl) (htiming ▸ hw.markers) (htiming ▸ hw.pulses)
  refine ⟨c₂, ?_⟩
  rw [hbits]
  simp only [Block.answered, hframe, htiming]

/-- Bit `i` of a complete answer is at `FRAME[39 - i]`. -/
theorem answered_frame_getLsbD {b : Block} {w : Waveform} (hw : w.Fits b.timing) (c : Count) {i : Nat} (hi : i < 40) :
    (b.answered w.bits c).frame.getLsbD (39 - i) = decide (b.timing.tBitThresh.toNat < (w.bits.getD i (0, 0)).2) := by
  have hlen : (pulseBits b.timing.tBitThresh w.bits).length = 40 := by rw [pulseBits, List.length_map, hw.fortyBits]
  have hib : i < w.bits.length := hw.fortyBits ▸ hi
  rw [Block.answered, foldl_shiftIn_getLsbD_of_length hlen hi, pulseBits]
  simp [List.getD_eq_getElem?_getD, hib]

/-! The tick of Validating. -/

theorem accepted_reading {b : Block} (hsane : frameSane b.frame = true) :
    b.accepted.humX10.toNat = tenths (byte0 b.frame) (byte1 b.frame) ∧
    b.accepted.tempX10.toNat = tenths (byte2 b.frame) (byte3 b.frame) := by
  obtain ⟨hhum, htemp⟩ := tenths_le_of_frameSane hsane
  simp only [Block.accepted, BitVec.toNat_ofNat]
  omega

/-- Whatever its frame is, a block is free after Validating. -/
theorem tickOn_validating_busy {b : Block} (hst : b.st = .validating) (hsst : b.sst = .idle) (lvl : Level) :
    (tickOn lvl b).busy = false := by
  rw [Block.busy_eq_false]
  cases hsum : checksumValid b.frame with
  | false =>
    rw [tickOn_validating_checksum hst hsum]
    exact ⟨rfl, hsst⟩
  | true =>
    cases hsane : frameSane b.frame with
    | false =>
      rw [tickOn_validating_notSane hst hsum hsane]
      exact ⟨rfl, hsst⟩
    | true =>
      rw [tickOn_validating_accepted hst hsum hsane]
      exact ⟨rfl, hsst⟩

/-! The run. -/

theorem run_of_step {s s' : State} (h : step s = .next s') (n : Nat) :
    Sys2Proof.core.run (1 + n) s = Sys2Proof.core.run n s' := by
  have hcore : Sys2Proof.core.step s = .next s' := h
  rw [Nat.add_comm]
  simp only [Host.Core.run, hcore]

/-- The write of the `READ` word to a free block, and the ticks after it. -/
theorem run_read {s : State} {inputs : List TickInput} {rest : List RunStep} (hb : s.blk.busy = false)
    (hs : s.schedule = .hostWrite 0 0x00000006 :: (tickSteps inputs ++ rest)) :
    Sys2Proof.core.run (1 + inputs.length) s =
      .next { s with schedule := rest, blk := ticks inputs s.blk.startRead } := by
  have hstep : step s = .next { s with schedule := tickSteps inputs ++ rest, blk := s.blk.startRead } := by
    rw [step_command_legal hs (decode_encode .read)]
    exact exec_read_free hb
  rw [run_of_step hstep, run_tickSteps _ _ rest rfl]

/-- Settles O52: the run to Validating by its three parts (the quiet ticks, the acknowledgement, the bits), the frame by
the order in which its bits were shifted in, and the last tick by the three outcomes of Validating. -/
theorem sensorAnswerIsDeliveredAsAReading : Obligations.SensorAnswerIsDeliveredAsAReading := by
  intro s w quiet answer final rest hb hs hw hquiet hanswer hsched
  have hlength : answer.length = w.levels.length := by simpa using congrArg List.length hanswer
  refine ⟨hlength.trans w.levels_length, ?_⟩
  obtain ⟨c, hrun⟩ := ticks_answer hs hw hanswer
  have hblk : ticks (quiet ++ answer) s.blk.startRead = s.blk.answered w.bits c := by
    rw [ticks_append, ticks_startRead hquiet, hrun]
  have hsst : (s.blk.answered w.bits c).sst = .idle := s.blk.startRead_sst.trans (s.blk.busy_eq_false.mp hb).2
  have herr : (s.blk.answered w.bits c).err = .none := s.blk.startRead_err
  have hvalid : (s.blk.answered w.bits c).valid = false := s.blk.startRead_valid
  have hst : (s.blk.answered w.bits c).st = .validating := rfl
  have hread := run_read (inputs := quiet ++ answer) (rest := tickSteps [final] ++ rest) hb (by simp [hsched])
  rw [hblk, List.length_append] at hread
  refine ⟨_, { s with schedule := rest, blk := tick final.1 final.2 (s.blk.answered w.bits c) }, hread, hst, rfl, rfl,
    fun i hi => answered_frame_getLsbD hw c hi, step_of_schedule_cons (e := .tick final.1 final.2) (rest := rest) rfl,
    rfl, tickOn_validating_busy hst hsst _, fun hsum hsane => ?accepted, fun hsum => ?checksum,
    fun hsum hsane => ?notSane⟩
  case accepted =>
    obtain ⟨hhum, htemp⟩ := accepted_reading hsane
    rw [tick, tickOn_validating_accepted hst hsum hsane]
    exact ⟨rfl, rfl, herr, rfl, hhum, htemp⟩
  case checksum =>
    rw [tick, tickOn_validating_checksum hst hsum]
    exact ⟨rfl, rfl, hvalid, rfl⟩
  case notSane =>
    rw [tick, tickOn_validating_notSane hst hsum hsane]
    exact ⟨rfl, rfl, hvalid, rfl⟩

end Sys2Proof.Machine
end

section
/-! Validating and the laws of a frame (44_validate_decode.md R130 to R134). -/

namespace Sys2Proof.Machine

/-- Settles O38: the three outcomes of Validating, of which no sample is a part, and the reading of a sane frame in its
registers. -/
theorem validatingEndsInOneTick : Obligations.ValidatingEndsInOneTick := by
  intro b sensorLow draw hst
  refine ⟨fun hsum => ?checksum, fun hsum hsane => ?notSane, fun hsum hsane => ?accepted⟩
  case checksum => exact tickOn_validating_checksum hst hsum _
  case notSane => exact tickOn_validating_notSane hst hsum hsane _
  case accepted =>
    obtain ⟨hhum, htemp⟩ := accepted_reading hsane
    obtain ⟨hhumMax, htempMax⟩ := tenths_le_of_frameSane hsane
    exact ⟨b.accepted.humX10, b.accepted.tempX10, hhum, htemp, hhum.trans_le hhumMax, htemp.trans_le htempMax,
      tickOn_validating_accepted hst hsum hsane _⟩

/-- Settles O35: a duration that is not 0 is the bit that says whether it is above the threshold. -/
theorem classifyComparesWithTheThreshold : Obligations.ClassifyComparesWithTheThreshold := by
  intro thresh d
  refine ⟨fun hd => ?zero, fun hd hlong => ?above, fun hd hshort => ?upTo⟩
  case zero => rw [classify, if_pos hd]
  case above => rw [classify_of_ne_zero hd, decide_eq_true hlong]
  case upTo => rw [classify_of_ne_zero hd, decide_eq_false hshort.not_gt]

/-- The byte of a frame that starts at `FRAME[lo]` is a digit of the frame to the base 256. -/
theorem extractByte_toNat (f : RawFrame) (lo : Nat) : (f.extractLsb' lo 8).toNat = f.toNat / 2 ^ lo % 256 := by
  rw [BitVec.extractLsb'_toNat, Nat.shiftRight_eq_div_pow]

/-- Above the most significant byte of a frame there is nothing. -/
theorem byte0_toNat (f : RawFrame) : (byte0 f).toNat = f.toNat / 2 ^ 32 := by
  rw [byte0, extractByte_toNat]
  have := f.isLt
  omega

theorem byte4_toNat (f : RawFrame) : (byte4 f).toNat = f.toNat % 256 := by
  rw [byte4, extractByte_toNat, Nat.pow_zero, Nat.div_one]

/-- The checksum law as a sum of bytes: the wrap of the sum is the `mod 256` of R132. -/
theorem checksumValid_iff (f : RawFrame) :
    checksumValid f = true ↔ byte4 f = byte0 f + byte1 f + byte2 f + byte3 f := by
  have hsum : (byte0 f + byte1 f + byte2 f + byte3 f).toNat =
      ((byte0 f).toNat + (byte1 f).toNat + (byte2 f).toNat + (byte3 f).toNat) % 256 := by
    simp only [BitVec.toNat_add, Nat.mod_add_mod]
  rw [checksumValid, beq_iff_eq, ← hsum, BitVec.toNat_inj]

/-- Settles O37: the bytes as digits, the checksum by the wrap of a sum of bytes, the sanity check by its bounds. -/
theorem checksumAndSanityOfAFrame : Obligations.ChecksumAndSanityOfAFrame := fun f =>
  ⟨⟨byte0_toNat f, extractByte_toNat f 24, extractByte_toNat f 16, extractByte_toNat f 8, byte4_toNat f⟩,
    checksumValid_iff f, frameSane_iff f⟩

end Sys2Proof.Machine
end

section
/-! Errors (60_exceptions.md R141, R142, R146): a tick raises one by an arrow to Failed and an acceptance raises none, and
no step stops the machine. -/

namespace Sys2Proof.Machine

/-! The entry to Failed. -/

/-- A tick of a transaction that ends in Failed is the entry to Failed and nothing else. -/
theorem Block.TransactionStep.eq_fail {b b' : Block} (h : b.TransactionStep b') (hfailed : b'.st = .failed) :
    ∃ code, code ≠ .none ∧ b' = b.fail code := by
  cases h with
  | fail code hcode => exact ⟨code, hcode, rfl⟩
  | accept => cases hfailed
  | move _ _ _ _ _ _ hst =>
    cases hfailed
    cases hst

theorem busy_of_tickOn_enters_failed {b : Block} {lvl : Level} (hst : b.st ≠ .failed)
    (hfailed : (tickOn lvl b).st = .failed) : b.st.busy = true := by
  by_contra hfree
  rw [Bool.not_eq_true] at hfree
  obtain ⟨hkeep, -⟩ := Block.protocolView_inj.mp (tickOn_protocolView_of_free hfree lvl)
  exact hst (hkeep.symm.trans hfailed)

/-- Settles O39: only a tick of a transaction enters Failed, and the entry keeps `DIR`, so `SETTLE` counts. -/
theorem failureEntryReplacesTheTick : Obligations.FailureEntryReplacesTheTick := by
  refine ⟨fun _ _ => rfl, fun b sensorLow draw hst hfailed => ?_⟩
  have hstep := transactionStep_tickAction (busy_of_tickOn_enters_failed hst hfailed) (sample sensorLow draw b)
  rw [tick, tickOn, settleTick_st] at hfailed
  obtain ⟨code, hcode, haction⟩ := hstep.eq_fail hfailed
  refine ⟨code, hcode, ?_⟩
  rw [tick, tickOn, haction]
  exact settleTick_keep rfl

/-! The places where an error is raised. -/

section
variable {lvl : Level} {b : Block}

theorem tickOn_enters_failed_iff (hst : b.st ≠ .failed) (code : ErrCode) :
    (tickOn lvl b).st = .failed ∧ (tickOn lvl b).err = code ↔ TickArrow lvl b .failed false code := by
  constructor
  · rintro ⟨hfailed, herr⟩
    by_cases hnone : ∀ st ph err, ¬TickArrow lvl b st ph err
    · exact absurd ((tickOn_protocol_of_no_arrow hnone).1.symm.trans hfailed) hst
    · push Not at hnone
      obtain ⟨st, ph, err, harrow⟩ := hnone
      obtain ⟨hst', -, herr'⟩ := tickOn_of_arrow harrow
      obtain rfl : st = .failed := hst'.symm.trans hfailed
      obtain rfl : err = code := herr'.symm.trans herr
      obtain rfl : ph = false := by cases harrow <;> rfl
      exact harrow
  · intro harrow
    obtain ⟨hfailed, -, herr⟩ := tickOn_of_arrow harrow
    exact ⟨hfailed, herr⟩

theorem arrow_noResponse_iff : TickArrow lvl b .failed false .noResponse ↔
    b.st = .waitSensorAck ∧ b.ph = true ∧ lvl = .high ∧ b.timing.tRespWindow.toNat ≤ b.cnt.toNat := by
  constructor
  · intro harrow
    cases harrow with
    | noResponse hst hp hlvl hlim => exact ⟨hst, hp, hlvl, hlim⟩
  · rintro ⟨hst, hp, hlvl, hlim⟩
    exact .noResponse hst hp hlvl hlim

theorem arrow_timeout_iff : TickArrow lvl b .failed false .timeout ↔
    (b.st = .waitSensorReady ∧ b.ph = false ∧ lvl = .low ∧ b.timing.tAckLowTo.toNat ≤ b.cnt.toNat) ∨
    (b.st = .waitSensorReady ∧ b.ph = true ∧ lvl = .high ∧ b.timing.tAckHighTo.toNat ≤ b.cnt.toNat) ∨
    (b.st = .readingBits ∧ b.ph = false ∧ lvl = .low ∧ b.timing.tBitLowTo.toNat ≤ b.cnt.toNat) ∨
    (b.st = .readingBits ∧ b.ph = true ∧ lvl = .high ∧ b.timing.tBitHighTo.toNat ≤ b.cnt.toNat) := by
  constructor
  · intro harrow
    cases harrow with
    | ackLowTimeout hst hp hlvl hlim => exact .inl ⟨hst, hp, hlvl, hlim⟩
    | ackHighTimeout hst hp hlvl hlim => exact .inr (.inl ⟨hst, hp, hlvl, hlim⟩)
    | markerTimeout hst hp hlvl hlim => exact .inr (.inr (.inl ⟨hst, hp, hlvl, hlim⟩))
    | dataTimeout hst hp hlvl hlim => exact .inr (.inr (.inr ⟨hst, hp, hlvl, hlim⟩))
  · rintro (⟨hst, hp, hlvl, hlim⟩ | ⟨hst, hp, hlvl, hlim⟩ | ⟨hst, hp, hlvl, hlim⟩ | ⟨hst, hp, hlvl, hlim⟩)
    · exact .ackLowTimeout hst hp hlvl hlim
    · exact .ackHighTimeout hst hp hlvl hlim
    · exact .markerTimeout hst hp hlvl hlim
    · exact .dataTimeout hst hp hlvl hlim

theorem arrow_checksumMismatch_iff : TickArrow lvl b .failed false .checksumMismatch ↔
    b.st = .validating ∧ checksumValid b.frame = false := by
  constructor
  · intro harrow
    cases harrow with
    | checksumDiffers hst hsum => exact ⟨hst, hsum⟩
  · rintro ⟨hst, hsum⟩
    exact .checksumDiffers hst hsum

theorem arrow_malformedFrame_iff : TickArrow lvl b .failed false .malformedFrame ↔
    (b.st = .validating ∧ checksumValid b.frame = true ∧ frameSane b.frame = false) ∨
    (b.st = .readingBits ∧ b.ph = true ∧ lvl = .low ∧ b.cnt = 0) := by
  constructor
  · intro harrow
    cases harrow with
    | notSane hst hsum hsane => exact .inl ⟨hst, hsum, hsane⟩
    | zeroDuration hst hp hlvl hcnt => exact .inr ⟨hst, hp, hlvl, hcnt⟩
  · rintro (⟨hst, hsum, hsane⟩ | ⟨hst, hp, hlvl, hcnt⟩)
    · exact .notSane hst hsum hsane
    · exact .zeroDuration hst hp hlvl hcnt

theorem no_arrow_failed_none : ¬TickArrow lvl b .failed false .none := nofun

end

/-- The acceptance of an operation raises no error; that of `READ` clears the last one (43_protocol_read.md R100). -/
theorem acceptance_err_cases (i : Instr) (b : Block) :
    (acceptance i b).err = b.err ∨ (i = .read ∧ (acceptance i b).err = .none) := by
  by_cases hread : i = .read
  · subst hread
    exact .inr ⟨rfl, b.startRead_err⟩
  · obtain ⟨-, -, -, -, herr, -⟩ := Block.protocolView_inj.mp (acceptance_protocolView hread b)
    exact .inl herr

/-- Settles O40: a tick enters Failed with a code exactly by an arrow of that code, and each code's arrows are its rows of
R141. -/
theorem errorsAreRaisedExactlyWhereListed : Obligations.ErrorsAreRaisedExactlyWhereListed := by
  refine ⟨fun b lvl hst => ?tick, fun i s t hexec => ?acceptance⟩
  case tick =>
    simp only [tickOn_enters_failed_iff hst]
    exact ⟨arrow_noResponse_iff, arrow_timeout_iff, arrow_checksumMismatch_iff, arrow_malformedFrame_iff,
      no_arrow_failed_none⟩
  case acceptance =>
    obtain ⟨-, rfl⟩ | ⟨-, rfl⟩ := exec_cases hexec
    · exact .inl rfl
    · exact acceptance_err_cases i s.blk

/-! Every step answers a next state. -/

theorem exec_answers (i : Instr) (s : State) : ∃ t, exec i s = .next t := by
  rw [exec_eq_whenFree]
  cases hb : s.blk.busy with
  | true => exact ⟨_, whenFree_busy hb⟩
  | false => exact ⟨_, whenFree_free hb⟩

theorem issue_answers (v : Word) (s : State) : ∃ t, issue v s = .next t := by
  cases hv : decode v with
  | ok i =>
    rw [issue_legal hv]
    exact exec_answers i s
  | error e => exact ⟨_, issue_illegal hv s⟩

theorem hostWrite_answers (n : RegNum) (v : Word) (s : State) : ∃ t, hostWrite n v s = .next t := by
  by_cases hreadOnly : 1 ≤ n.toNat ∧ n.toNat ≤ 7
  · exact ⟨_, hostWrite_readOnly hreadOnly.1 hreadOnly.2 v⟩
  · have hn : n = 0 ∨ 8 ≤ n.toNat := by bv_omega
    cases hb : s.blk.busy with
    | true => exact ⟨_, hostWrite_busy hn hb v⟩
    | false =>
      obtain rfl | hn := hn
      · rw [hostWrite_command_free hb]
        exact issue_answers v s
      · exact ⟨_, hostWrite_timing_free hn hb v⟩

theorem perform_answers (e : RunStep) (s : State) : ∃ t, perform e s = .next t := by
  cases e with
  | reset => exact ⟨_, perform_reset s⟩
  | hostRead n => exact ⟨_, perform_hostRead n s⟩
  | hostWrite n v => exact hostWrite_answers n v s
  | tick sensorLow draw => exact ⟨_, perform_tick sensorLow draw s⟩

theorem step_answers (s : State) : ∃ t, step s = .next t := by
  cases hs : s.schedule with
  | nil => exact ⟨_, step_of_schedule_nil hs⟩
  | cons e rest =>
    rw [step_of_schedule_cons hs]
    exact perform_answers e _

/-- Settles O7: one step by its kind, any number of steps by induction on the number. -/
theorem noStepEverStops : Obligations.NoStepEverStops := by
  refine ⟨step_answers, fun k => ?_⟩
  induction k with
  | zero => exact fun s => ⟨s, rfl⟩
  | succ k ih =>
    intro s
    obtain ⟨s', hstep⟩ := step_answers s
    rw [Nat.add_comm, run_of_step hstep]
    exact ih s'

end Sys2Proof.Machine
end

section
/-! The first poll of a transaction and what it samples (70_reset_and_hazards.md R165). -/

namespace Sys2Proof.Machine

/-- The two cases of `sample()` on a released wire (10_state.md R31). -/
theorem sample_input {b : Block} (h : b.dir = .input) (sl : Bool) (draw : Level) :
    sample sl draw b = if Config.tSettleUs.toNat ≤ b.settle.toNat then (if sl then .low else .high) else draw := by
  split
  · next hs => exact sample_settled h hs sl draw
  · next hs => exact sample_unsettled h (Nat.lt_of_not_le hs) sl draw

theorem Block.firstPoll_settle_toNat (b : Block) : b.firstPoll.settle.toNat = duration b.timing.tAckDelay := by
  have := duration_lt b.timing.tAckDelay
  rw [Block.firstPoll, iterate_saturatingSucc_toNat, show (0 : Count).toNat = 0 from rfl]
  omega

/-- Settles O48: HostStart and the delay phase lead to the first poll, where `SETTLE` has counted the delay. -/
theorem firstPollComesAfterTheDelay : Obligations.FirstPollComesAfterTheDelay := by
  intro s t inputs hb hexec hlen
  rw [exec_read_free hb] at hexec
  cases hexec
  have hsettle := s.blk.firstPoll_settle_toNat
  rw [State.onBlock_blk, ticks_startRead hlen]
  refine ⟨rfl, rfl, rfl, rfl, hsettle, fun sl draw => ?_⟩
  rw [sample_input rfl, hsettle, duration]

end Sys2Proof.Machine
end

section
/-! The longest transaction (70_reset_and_hazards.md R171): whatever is sampled, a tick of a transaction counts on below
its phase's limit, or ends the phase. -/

namespace Sys2Proof.Machine

/-- The longest marker and data pulse of one bit. -/
def Timing.bitTicks (t : Timing) : Nat := duration t.tBitLowTo + duration t.tBitHighTo

/-- The most ticks of a transaction after the bit that is captured at `BITCNT = n`: the bits up to the last one, which
is captured at 39, and Validating. The difference wraps as `BITCNT` does, so no bound on `n` is needed. -/
def Timing.laterBitTicks (t : Timing) (n : BitVec 6) : Nat := (39 - n).toNat * t.bitTicks + 1

/-- The count from which the next tick ends the present phase of a transaction: a wait tests the incremented count, a
sampling phase the count itself. -/
def Block.phaseLimit (b : Block) : Nat :=
  match b.st, b.ph with
  | .hostStart, _ => b.timing.tStart.toNat - 1
  | .waitSensorAck, false => b.timing.tAckDelay.toNat - 1
  | .waitSensorAck, true => b.timing.tRespWindow.toNat
  | .waitSensorReady, false => b.timing.tAckLowTo.toNat
  | .waitSensorReady, true => b.timing.tAckHighTo.toNat
  | .readingBits, false => b.timing.tBitLowTo.toNat
  | .readingBits, true => b.timing.tBitHighTo.toNat
  | _, _ => 0

/-- The most ticks of a transaction after its present phase. -/
def Block.laterTicks (b : Block) : Nat :=
  let t := b.timing
  match b.st, b.ph with
  | .hostStart, _ => duration t.tAckDelay + (t.tRespWindow.toNat + 1) + duration t.tAckLowTo + duration t.tAckHighTo +
      t.bitTicks + t.laterBitTicks b.bitcnt
  | .waitSensorAck, false => (t.tRespWindow.toNat + 1) + duration t.tAckLowTo + duration t.tAckHighTo +
      t.bitTicks + t.laterBitTicks b.bitcnt
  | .waitSensorAck, true => duration t.tAckLowTo + duration t.tAckHighTo + t.bitTicks + t.laterBitTicks b.bitcnt
  | .waitSensorReady, false => duration t.tAckHighTo + t.bitTicks + t.laterBitTicks b.bitcnt
  | .waitSensorReady, true => t.bitTicks + t.laterBitTicks b.bitcnt
  | .readingBits, false => duration t.tBitHighTo + t.laterBitTicks b.bitcnt
  | .readingBits, true => t.laterBitTicks b.bitcnt
  | _, _ => 0

/-- The most ticks until a block's transaction is over. -/
def Block.ticksLeft (b : Block) : Nat :=
  if b.st.busy then b.phaseLimit - b.cnt.toNat + 1 + b.laterTicks else 0

theorem Timing.laterBitTicks_pos (t : Timing) (n : BitVec 6) : 1 ≤ t.laterBitTicks n := Nat.le_add_left 1 _

theorem Timing.laterBitTicks_next (t : Timing) {n : BitVec 6} (hn : n ≠ 39) :
    t.laterBitTicks n = t.bitTicks + t.laterBitTicks (n + 1) := by
  have hleft : (39 - n).toNat = (39 - (n + 1)).toNat + 1 := by bv_omega
  rw [Timing.laterBitTicks, Timing.laterBitTicks, hleft, Nat.succ_mul]
  omega

/-- A wait from a count of 0 and a chained pulse from a count of 1 last the duration of their limit. -/
@[simp] theorem sub_one_add_one_eq_duration (n : Count) : n.toNat - 1 + 1 = duration n := by
  rw [duration]
  omega

section
variable {b : Block} {lvl : Level}

@[simp] theorem Block.count_phaseLimit (b : Block) : b.count.phaseLimit = b.phaseLimit := rfl
@[simp] theorem Block.count_laterTicks (b : Block) : b.count.laterTicks = b.laterTicks := rfl

theorem Block.phaseLimit_lt (b : Block) : b.phaseLimit < 2 ^ 24 := by
  unfold Block.phaseLimit
  split <;> omega

theorem ticksLeft_of_busy (hb : b.st.busy = true) :
    b.ticksLeft = b.phaseLimit - b.cnt.toNat + 1 + b.laterTicks := if_pos hb

theorem ticksLeft_eq_zero_iff : b.ticksLeft = 0 ↔ b.st.busy = false := by simp [Block.ticksLeft]

theorem Block.Awaits.phaseLimit {limit : Count} {code : ErrCode} (h : b.Awaits lvl limit code) :
    b.phaseLimit = limit.toNat := by
  cases h with
  | answer hst hp => simp only [Block.phaseLimit, hst, hp]
  | pulse h =>
    obtain ⟨hst, hp, rfl, rfl⟩ | ⟨hst, hp, rfl, rfl⟩ | ⟨hst, hp, rfl, rfl⟩ | ⟨hst, hp, rfl, rfl⟩ :=
      chainedPulse_cases h <;> simp only [Block.phaseLimit, hst, hp]

variable (hb : b.st.busy = true)
include hb

/-! The two ways nearer to the end. -/

theorem ticksLeft_lt_of_count (htick : tickOn lvl b = b.count) (hlim : b.cnt.toNat < b.phaseLimit) :
    (tickOn lvl b).ticksLeft < b.ticksLeft := by
  have hcnt : b.count.cnt.toNat = b.cnt.toNat + 1 := count_succ_toNat hlim b.phaseLimit_lt
  rw [htick, ticksLeft_of_busy hb, ticksLeft_of_busy (b := b.count) hb, hcnt, b.count_phaseLimit, b.count_laterTicks]
  omega

theorem ticksLeft_lt_of_phase_over {b' : Block} (htick : tickOn lvl b = b') (h : b'.ticksLeft ≤ b.laterTicks) :
    (tickOn lvl b).ticksLeft < b.ticksLeft := by
  rw [htick, ticksLeft_of_busy hb]
  omega

/-! The rules of a transaction. -/

/-- A sample of the awaited level is counted, or fails the transaction. -/
theorem Block.Awaits.ticksLeft_lt {limit : Count} {code : ErrCode} (h : b.Awaits lvl limit code) :
    (tickOn lvl b).ticksLeft < b.ticksLeft := by
  obtain hlim | hlim := Nat.lt_or_ge b.cnt.toNat limit.toNat
  · exact ticksLeft_lt_of_count hb (tickOn_awaited_below h hlim) (h.phaseLimit ▸ hlim)
  · exact ticksLeft_lt_of_phase_over hb (tickOn_awaited_atLimit h hlim) (Nat.zero_le _)

theorem ticksLeft_hostStart_lt (hst : b.st = .hostStart) : (tickOn lvl b).ticksLeft < b.ticksLeft := by
  have htick := tickOn_hostStart hst lvl
  split at htick
  · refine ticksLeft_lt_of_phase_over hb htick ?_
    simp [Block.ticksLeft, Block.phaseLimit, Block.laterTicks, Block.startOver, hst, Protocol.busy, Nat.add_assoc]
  · refine ticksLeft_lt_of_count hb htick ?_
    simp only [Block.phaseLimit, hst]
    omega

theorem ticksLeft_ackDelay_lt (hst : b.st = .waitSensorAck) (hp : b.ph = false) :
    (tickOn lvl b).ticksLeft < b.ticksLeft := by
  have htick := tickOn_ackDelay hst hp lvl
  split at htick
  · refine ticksLeft_lt_of_phase_over hb htick ?_
    simp [Block.ticksLeft, Block.phaseLimit, Block.laterTicks, Block.delayOver, hst, hp, Protocol.busy, Nat.add_assoc]
  · refine ticksLeft_lt_of_count hb htick ?_
    simp only [Block.phaseLimit, hst, hp]
    omega

theorem ticksLeft_ackPoll_low_lt (hst : b.st = .waitSensorAck) (hp : b.ph = true) :
    (tickOn .low b).ticksLeft < b.ticksLeft := by
  refine ticksLeft_lt_of_phase_over hb (tickOn_ackPoll_low hst hp) ?_
  simp [Block.ticksLeft, Block.phaseLimit, Block.laterTicks, hst, hp, Protocol.busy, Nat.add_assoc]

theorem ticksLeft_readyLow_high_lt (hst : b.st = .waitSensorReady) (hp : b.ph = false) :
    (tickOn .high b).ticksLeft < b.ticksLeft := by
  refine ticksLeft_lt_of_phase_over hb (tickOn_readyLow_high hst hp) ?_
  simp [Block.ticksLeft, Block.phaseLimit, Block.laterTicks, hst, hp, Protocol.busy, Nat.add_assoc]

theorem ticksLeft_readyHigh_low_lt (hst : b.st = .waitSensorReady) (hp : b.ph = true) :
    (tickOn .low b).ticksLeft < b.ticksLeft := by
  refine ticksLeft_lt_of_phase_over hb (tickOn_readyHigh_low hst hp) ?_
  simp [Block.ticksLeft, Block.phaseLimit, Block.laterTicks, hst, hp, Protocol.busy, Timing.bitTicks, Nat.add_assoc]

theorem ticksLeft_bitLow_high_lt (hst : b.st = .readingBits) (hp : b.ph = false) :
    (tickOn .high b).ticksLeft < b.ticksLeft := by
  refine ticksLeft_lt_of_phase_over hb (tickOn_bitLow_high hst hp) ?_
  simp [Block.ticksLeft, Block.phaseLimit, Block.laterTicks, hst, hp, Protocol.busy]

/-- The end of a data pulse: one of no samples fails, the 40th bit leads to Validating, another to the next marker. -/
theorem ticksLeft_bitHigh_low_lt (hst : b.st = .readingBits) (hp : b.ph = true) :
    (tickOn .low b).ticksLeft < b.ticksLeft := by
  by_cases hcnt : b.cnt = 0
  · exact ticksLeft_lt_of_phase_over hb (tickOn_bitHigh_low_zero hst hp hcnt) (Nat.zero_le _)
  · refine ticksLeft_lt_of_phase_over hb (tickOn_bitHigh_low hst hp hcnt) ?_
    by_cases hbits : b.bitcnt = 39
    · rw [capture_last hbits]
      simp [Block.ticksLeft, Block.phaseLimit, Block.laterTicks, hst, hp, Protocol.busy, Timing.laterBitTicks_pos]
    · rw [capture_next hbits]
      simp [Block.ticksLeft, Block.phaseLimit, Block.laterTicks, hst, hp, Protocol.busy, Timing.bitTicks, Nat.add_assoc,
        b.timing.laterBitTicks_next hbits]

/-- Validating ends in one tick. -/
theorem ticksLeft_validating_lt (hst : b.st = .validating) (hsst : b.sst = .idle) :
    (tickOn lvl b).ticksLeft < b.ticksLeft := by
  obtain ⟨hfree, -⟩ := (tickOn lvl b).busy_eq_false.mp (tickOn_validating_busy hst hsst lvl)
  exact ticksLeft_lt_of_phase_over hb rfl ((ticksLeft_eq_zero_iff.mpr hfree).trans_le (Nat.zero_le _))

/-- Every tick of a transaction brings it nearer to its end, whatever is sampled. -/
theorem ticksLeft_tickOn_lt (hsst : b.sst = .idle) (lvl : Level) : (tickOn lvl b).ticksLeft < b.ticksLeft := by
  cases hst : b.st with
  | idle | done | failed => simp [hst, Protocol.busy] at hb
  | hostStart => exact ticksLeft_hostStart_lt hb hst
  | waitSensorAck =>
    cases hp : b.ph with
    | false => exact ticksLeft_ackDelay_lt hb hst hp
    | true =>
      cases lvl with
      | low => exact ticksLeft_ackPoll_low_lt hb hst hp
      | high => exact (Block.Awaits.answer hst hp).ticksLeft_lt hb
  | waitSensorReady =>
    cases hp : b.ph with
    | false =>
      cases lvl with
      | low => exact (Block.Awaits.pulse (chainedPulse_readyLow hst hp)).ticksLeft_lt hb
      | high => exact ticksLeft_readyLow_high_lt hb hst hp
    | true =>
      cases lvl with
      | low => exact ticksLeft_readyHigh_low_lt hb hst hp
      | high => exact (Block.Awaits.pulse (chainedPulse_readyHigh hst hp)).ticksLeft_lt hb
  | readingBits =>
    cases hp : b.ph with
    | false =>
      cases lvl with
      | low => exact (Block.Awaits.pulse (chainedPulse_bitLow hst hp)).ticksLeft_lt hb
      | high => exact ticksLeft_bitLow_high_lt hb hst hp
    | true =>
      cases lvl with
      | low => exact ticksLeft_bitHigh_low_lt hb hst hp
      | high => exact (Block.Awaits.pulse (chainedPulse_bitHigh hst hp)).ticksLeft_lt hb
  | validating => exact ticksLeft_validating_lt hb hst hsst

end

/-! The run. -/

/-- The action of a tick in a transaction does not enter Idle. -/
theorem Block.TransactionStep.ne_idle {b b' : Block} (h : b.TransactionStep b') : b'.st ≠ .idle := by
  cases h with
  | fail | accept => nofun
  | move st _ _ _ _ _ hst =>
    rintro rfl
    contradiction

section
variable {b : Block} (sl : Bool) (draw : Level)

theorem tick_st_of_free (hb : b.st.busy = false) : (tick sl draw b).st = b.st :=
  (Block.protocolView_inj.mp (tick_protocolView_of_free hb sl draw)).1

theorem tick_ne_idle (hst : b.st ≠ .idle) : (tick sl draw b).st ≠ .idle := by
  cases hb : b.st.busy with
  | true =>
    rw [tick, tickOn, settleTick_st]
    exact (transactionStep_tickAction hb _).ne_idle
  | false => rwa [tick_st_of_free sl draw hb]

theorem ticksLeft_tick_le (hsst : b.sst = .idle) : (tick sl draw b).ticksLeft ≤ b.ticksLeft - 1 := by
  cases hb : b.st.busy with
  | true => exact Nat.le_sub_one_of_lt (ticksLeft_tickOn_lt hb hsst _)
  | false =>
    have hfree : (tick sl draw b).st.busy = false := (congrArg Protocol.busy (tick_st_of_free sl draw hb)).trans hb
    rw [ticksLeft_eq_zero_iff.mpr hfree]
    exact Nat.zero_le _

end

/-- A transaction is over when the ticks it has left have run, whatever the inputs. -/
theorem ticks_transaction_over {b : Block} (hsst : b.sst = .idle) (hst : b.st ≠ .idle) {inputs : List TickInput}
    (hlen : b.ticksLeft ≤ inputs.length) :
    ((ticks inputs b).st = .done ∨ (ticks inputs b).st = .failed) ∧ (ticks inputs b).busy = false := by
  induction inputs generalizing b with
  | nil =>
    have hfree : b.st.busy = false := ticksLeft_eq_zero_iff.mp (Nat.le_zero.mp hlen)
    exact ⟨((Protocol.busy_eq_false_iff _).mp hfree).resolve_left hst, b.busy_eq_false.mpr ⟨hfree, hsst⟩⟩
  | cons i inputs ih =>
    have hless : (tick i.1 i.2 b).ticksLeft ≤ inputs.length :=
      Nat.le_trans (ticksLeft_tick_le i.1 i.2 hsst) (Nat.sub_le_of_le_add hlen)
    exact ih (tick_sst_idle hsst i.1 i.2) (tick_ne_idle i.1 i.2 hst) hless

/-- A transaction begins with the ticks of the table's last row. -/
theorem ticksLeft_startRead (b : Block) : b.startRead.ticksLeft = longestTransaction b.timing := by
  simp [Block.ticksLeft, Block.phaseLimit, Block.laterTicks, Timing.laterBitTicks, Timing.bitTicks, longestTransaction,
    Protocol.busy]
  omega

/-- Settles O49: `READ` begins with the ticks of the table's last row left, and each tick takes at least one off. -/
theorem everyTransactionEndsInBoundedTime : Obligations.EveryTransactionEndsInBoundedTime := by
  intro s t inputs hb hexec hlen
  rw [exec_read_free hb] at hexec
  cases hexec
  obtain ⟨-, hsst⟩ := s.blk.busy_eq_false.mp hb
  rw [State.onBlock_blk]
  exact ticks_transaction_over (s.blk.startRead_sst.trans hsst) (by simp) (by rwa [ticksLeft_startRead])

end Sys2Proof.Machine
end

section
/-! The words of 30_encoding.md, "Worked encodings", and of 95_test_vectors.md V-E1 to V-E18: the encoder's words, a word
with ignored fields, and the words that fail a check of R64. -/

namespace Sys2Proof

theorem decode_of_eq_encode {w : Word} {i : Instr} (h : w = encode i) : decode w = .ok i := h ▸ decode_encode i

/-- A word whose `RSV` is not 0 is refused with the bits it has there, whatever its `OP` (30_encoding.md R64). -/
theorem decode_of_rsv_ne_zero {w : Word} (hrsv : fieldRsv w ≠ 0) : decode w = .error (.reservedBits (fieldRsv w)) :=
  if_neg hrsv

/-- A word whose `OP` alone is illegal is refused with that `OP` (30_encoding.md R64). -/
theorem decode_of_op_illegal {w : Word} (hrsv : fieldRsv w = 0) (hop : opLegal w = false) :
    decode w = .error (.illegalOp (fieldOp w)) := by
  have hout : ¬ (1 ≤ (fieldOp w).toNat ∧ (fieldOp w).toNat ≤ 6) := by simpa [opLegal, fieldOp_toNat] using hop
  unfold decode
  rw [if_pos hrsv]
  split
  case h_7 => rfl
  all_goals
    next h => exact absurd h (by omega)

/-- Settles O1: twelve of the words are the encoder's, `0xFFFFFF16` fills the fields `READ` ignores, and each of the
other five fails a check of R64. -/
theorem specWordsDecodeAsListed : Obligations.SpecWordsDecodeAsListed := by
  unfold Obligations.SpecWordsDecodeAsListed
  have hread : decode 0xFFFFFF16 = .ok .read := decode_eq_ok_iff.mpr ⟨rfl, rfl, trivial⟩
  have hop0 : decode 0x00000000 = .error (.illegalOp 0) := decode_of_op_illegal rfl rfl
  have hop7 : decode 0x00000007 = .error (.illegalOp 7) := decode_of_op_illegal rfl rfl
  have hop15 : decode 0x0000000F = .error (.illegalOp 15) := decode_of_op_illegal rfl rfl
  have hrsv1 : decode 0x00000026 = .error (.reservedBits 1) := decode_of_rsv_ne_zero (by decide)
  have hrsv4 : decode 0x00000081 = .error (.reservedBits 4) := decode_of_rsv_ne_zero (by decide)
  refine ⟨?_, ?_, ?_, ?_, ?_, ?_, ?_, ?_, ?_, ?_, ?_, ?_, hread, hop0, hop7, hop15, hrsv1, hrsv4⟩
  all_goals exact decode_of_eq_encode (by decide)

end Sys2Proof
end

section
/-! `PULSE` (10_state.md R21). -/

namespace Sys2Proof

theorem Level.bit_toNat (l : Level) : l.bit.toNat = (decide (l = .high)).toNat := by cases l <;> rfl

end Sys2Proof

namespace Sys2Proof.Machine

/-- `PULSE` as the sum of its fields (10_state.md R21). -/
theorem Pulse.word_toNat (p : Pulse) : p.word.toNat =
    p.dur.toNat + 2 ^ 24 * p.timedOut.toNat + 2 ^ 25 * p.lvls.bit.toNat + 2 ^ 26 * p.zero.toNat := by
  simp only [Pulse.word, append_toNat, BitVec.toNat_ofBool, BitVec.toNat_ofNat]
  omega

/-- Settles O11, the fields by `PULSE` as a sum. -/
theorem pulseWordShowsTheResults : Obligations.PulseWordShowsTheResults := by
  intro p
  have hsum := p.word_toNat
  rw [Level.bit_toNat] at hsum
  have := p.dur.isLt
  have := p.timedOut.toNat_le
  have := (decide (p.lvls = .high)).toNat_le
  have := p.zero.toNat_le
  have hlvls : p.word.getLsbD 25 = decide (p.lvls = .high) := getLsbD_of_toNat (by omega)
  refine ⟨?dur, getLsbD_of_toNat ?timedOut, by rw [hlvls, decide_eq_true_iff], getLsbD_of_toNat ?zero, ?bound⟩ <;> omega

end Sys2Proof.Machine
end
